-- ==== Sys2Proof/Word.lean ====
section
/-! DEFINITION. The engine's word types (00_scope.md R13: widths; bit 0 is the least significant bit). -/

namespace Sys2Proof

/-- Format SW, the state word (R63). -/
abbrev StateWord := BitVec 16

/-- Format BK, the bus access key `{W, OFF}` (R70). -/
abbrev AccessKey := BitVec 13

/-- Format HC, the host command bit (R74). -/
abbrev HostBit := BitVec 1

/-- A byte offset within the GPIO bank (R40). -/
abbrev Offset := BitVec 12

/-- A GPIO register, and the data of a bus access (R46). -/
abbrev GpioWord := BitVec 32

/-- The 40 sampled bits: SR and DATA (R24, R25). -/
abbrev Frame := BitVec 40

/-- One byte of the frame (R117). -/
abbrev Byte := BitVec 8

/-- The BYTE and BIT fields of a state word (R63). -/
abbrev Index := BitVec 3

end Sys2Proof
end

