-- ==== Sys2Proof/Config.lean ====
section
/-! DEFINITION. The configuration record of Table P1 (00_scope.md R10 to R12) and the free values. -/

namespace Sys2Proof

/-- Table P1, one field per row. It is fixed for the life of a model (R57, R163). -/
structure Cfg where
  /-- `PIN`: the bank-relative bit position of the line. -/
  pin : Nat
  /-- `MASK`: the one-hot pin mask. -/
  mask : GpioWord
  /-- `OFF_OE`: the direction register's offset. -/
  offOe : Offset
  /-- `OFF_DATAIN`: the data-in register's offset. -/
  offDatain : Offset
  /-- `OFF_CLR`: the clear-data-out register's offset. -/
  offClr : Offset
  /-- `OFF_SET`: the set-data-out register's offset. -/
  offSet : Offset
  /-- `GPIO_BASE`: the bus address of the bank, OPEN (D20); its width is the platform's (R40). -/
  gpioBase : Nat
  /-- `REG_W`: the GPIO register width. -/
  regW : Nat
  /-- `TICK_US`: the length of one tick in µs. -/
  tickUs : Nat
  /-- `CLK_PER_TICK`: engine clock cycles per tick, OPEN (D2); no rule reads it (R11). -/
  clkPerTick : Nat
  /-- `T_START_LOW`: the start-low hold in ticks. -/
  tStartLow : Nat
  /-- `T_START_HIGH`: the start-high hold in ticks. -/
  tStartHigh : Nat
  /-- `POLL_BOUND`: the reads a poll makes before it times out. -/
  pollBound : Nat
  /-- `T_SETTLE`: ticks from the detecting read to the sample. -/
  tSettle : Nat
  /-- `FRAME_BYTES`. -/
  frameBytes : Nat
  /-- `FRAME_BITS`. -/
  frameBits : Nat
  /-- `CNT_W`: the width of CNT. -/
  cntW : Nat
  /-- `OE_INIT`: OE before the first acquisition, OPEN (D28). -/
  oeInit : GpioWord
  deriving DecidableEq, Repr

/-- The defaults of Table P1. The three OPEN rows hold values the model names (DESIGN CHOICE, log 2 and
log 3): GPIO_BASE 0, CLK_PER_TICK 1, OE_INIT 0xFFFFFFFF (the start state of programs P1 to P4 of
95_test_vectors.md). -/
def Cfg.default : Cfg where
  pin := 30
  mask := 0x40000000#32
  offOe := 0x134#12
  offDatain := 0x138#12
  offClr := 0x190#12
  offSet := 0x194#12
  gpioBase := 0
  regW := 32
  tickUs := 1
  clkPerTick := 1
  tStartLow := 18000
  tStartHigh := 30
  pollBound := 100
  tSettle := 30
  frameBytes := 5
  frameBits := 40
  cntW := 16
  oeInit := 0xFFFFFFFF#32

/-- Free value: the 32-bit word a DATAIN read returns at a tick for which State's line trace says nothing
(R54: a draw of the environment that obeys no law; U10 for the 31 other bits). Log 7. -/
opaque Config.datainDraw : Nat → GpioWord

/-- Free value: what another master reads from a register whose read the spec does not describe (R72, U3:
`any value`). It is applied to the number of bus events recorded before the read. Log 9. -/
opaque Config.undescribedRead : Nat → GpioWord

end Sys2Proof
end

