-- ==== Sys2Proof/Syntax.lean ====
section
/-! DEFINITION. The engine's instructions: the rows of spec/opcode_table.json (30_encoding.md R68, R71, R74),
with the text syntax of R75. -/

namespace Sys2Proof

/-- One constructor per row of the opcode table. The state words (SW) are the states the engine steps through,
the access keys (BK) the bus accesses, and ACQUIRE (HC) the host command. -/
inductive Instr where
  /-- SW 0x0000 (R99). -/
  | idle
  /-- SW 0x1000 (R100). -/
  | driveStartLow
  /-- SW 0x2000 (R101). -/
  | driveStartHigh
  /-- SW 0x3000 (R105). -/
  | awaitAckLow
  /-- SW 0x4000 (R106). -/
  | awaitAckHigh
  /-- SW 0x5000 (R107). -/
  | awaitAckEnd
  /-- SW 0x6000 + 8b + i (R114). -/
  | readBitRise (b i : Index)
  /-- SW 0x6040 + 8b + i (R115). -/
  | readBitSettle (b i : Index)
  /-- SW 0x6080 + 8b + i (R116). -/
  | readBitFall (b i : Index)
  /-- SW 0x7000 (R125). -/
  | verifyChecksum
  /-- SW 0x8000 (R127). -/
  | success
  /-- SW 0x9200 (R128). -/
  | failedNoResponse
  /-- SW 0x9400 (R128). -/
  | failedStuckLow
  /-- SW 0x9600 (R128). -/
  | failedStuckHigh
  /-- SW 0x9800 + 8b + i (R128). -/
  | failedBitTimeout (b i : Index)
  /-- SW 0x9A00 + 8b + i (R128). -/
  | failedBitStuckHigh (b i : Index)
  /-- SW 0x9C00 (R128). -/
  | failedChecksumMismatch
  /-- BK `{0, OFF_OE}` (R81). -/
  | oeRd
  /-- BK `{0, OFF_DATAIN}` (R82). -/
  | datainRd
  /-- BK `{1, OFF_OE}` with write data v (R83). -/
  | oeWr (v : GpioWord)
  /-- BK `{1, OFF_CLR}` with write data v (R84). -/
  | clrWr (v : GpioWord)
  /-- BK `{1, OFF_SET}` with write data v (R85). -/
  | setWr (v : GpioWord)
  /-- HC = 1 (R97). -/
  | acquire
  deriving DecidableEq, Repr

/-- The document's FailureKind, in its order (R66, R135). -/
inductive FailKind where
  | noResponse
  | stuckLow
  | stuckHigh
  | bitTimeout
  | bitStuckHigh
  | checksumMismatch
  deriving DecidableEq, Repr

/-- The three classes of failures (R143). -/
inductive FailClass where
  /-- "the sensor did not respond or is electrically stuck" -/
  | handshake
  /-- "a transmission glitch mid-frame" -/
  | bitTiming
  /-- "a complete but corrupted frame" -/
  | corruptedFrame
  deriving DecidableEq, Repr

/-- The class of a failure kind (R143). -/
def FailKind.failClass : FailKind → FailClass
  | .noResponse => .handshake
  | .stuckLow => .handshake
  | .stuckHigh => .handshake
  | .bitTimeout => .bitTiming
  | .bitStuckHigh => .bitTiming
  | .checksumMismatch => .corruptedFrame

/-- The bus masters of the GPIO bank: the engine, and any other (R9, R60). -/
inductive Master where
  | engine
  | other
  deriving DecidableEq, Repr

/-- A word with the place where it appears, which alone gives its format (R61, R79). -/
inductive Presented where
  /-- STATE or the `state_word` port. -/
  | sw (w : StateWord)
  /-- A bus access: its key and its 32-bit data. -/
  | bk (key : AccessKey) (data : GpioWord)
  /-- The `acq_req` input in one tick. -/
  | hc (bit : HostBit)
  deriving DecidableEq, Repr

/-- An instruction's row in the opcode table. -/
def Instr.mnemonic : Instr → String
  | .idle => "IDLE"
  | .driveStartLow => "DRIVE_START_LOW"
  | .driveStartHigh => "DRIVE_START_HIGH"
  | .awaitAckLow => "AWAIT_ACK_LOW"
  | .awaitAckHigh => "AWAIT_ACK_HIGH"
  | .awaitAckEnd => "AWAIT_ACK_END"
  | .readBitRise _ _ => "READ_BIT.RISE"
  | .readBitSettle _ _ => "READ_BIT.SETTLE"
  | .readBitFall _ _ => "READ_BIT.FALL"
  | .verifyChecksum => "VERIFY_CHECKSUM"
  | .success => "SUCCESS"
  | .failedNoResponse => "FAILED.NO_RESPONSE"
  | .failedStuckLow => "FAILED.STUCK_LOW"
  | .failedStuckHigh => "FAILED.STUCK_HIGH"
  | .failedBitTimeout _ _ => "FAILED.BIT_TIMEOUT"
  | .failedBitStuckHigh _ _ => "FAILED.BIT_STUCK_HIGH"
  | .failedChecksumMismatch => "FAILED.CHECKSUM_MISMATCH"
  | .oeRd => "OE_RD"
  | .datainRd => "DATAIN_RD"
  | .oeWr _ => "OE_WR"
  | .clrWr _ => "CLR_WR"
  | .setWr _ => "SET_WR"
  | .acquire => "ACQUIRE"

end Sys2Proof
end

