-- ==== Sys2Proof/WellFormed.lean ====
section
/-! DEFINITION. Well-formedness: of an instruction (30_encoding.md R63, R67) and of a configuration (the
constraint column of Table P1, 00_scope.md). Both are Bool, so that they can be evaluated. -/

namespace Sys2Proof

/-- BYTE is the byteIndex 0..4; values 5 to 7 are reserved (R67). BIT is any 3-bit value, and the data of a
write is any 32-bit value (R83 to R85). -/
def byteIndexOk (b : Index) : Bool := decide (b.toNat ≤ 4)

/-- An instruction's operands are in the ranges its encoding admits (R67, R68). -/
def Instr.wf : Instr → Bool
  | .readBitRise b _ => byteIndexOk b
  | .readBitSettle b _ => byteIndexOk b
  | .readBitFall b _ => byteIndexOk b
  | .failedBitTimeout b _ => byteIndexOk b
  | .failedBitStuckHigh b _ => byteIndexOk b
  | .idle => true
  | .driveStartLow => true
  | .driveStartHigh => true
  | .awaitAckLow => true
  | .awaitAckHigh => true
  | .awaitAckEnd => true
  | .verifyChecksum => true
  | .success => true
  | .failedNoResponse => true
  | .failedStuckLow => true
  | .failedStuckHigh => true
  | .failedChecksumMismatch => true
  | .oeRd => true
  | .datainRd => true
  | .oeWr _ => true
  | .clrWr _ => true
  | .setWr _ => true
  | .acquire => true

/-- `0 <= PIN <= 31` and `MASK = 1 << PIN`. -/
def Cfg.pinOk (c : Cfg) : Bool := decide (c.pin ≤ 31) && (c.mask == 1#32 <<< c.pin)

/-- Every offset is 4-aligned (R44); `< 0x1000` holds by its 12 bits. -/
def Cfg.offsetsAligned (c : Cfg) : Bool :=
  [c.offOe, c.offDatain, c.offClr, c.offSet].all fun o => o.toNat % 4 == 0

/-- The four registers stand at four offsets. DEDUCED (log 5) from R41 ("exactly four registers"), R72 and
R82 (a write of DATAIN is never issued): Table P1 does not say it. -/
def Cfg.offsetsDistinct (c : Cfg) : Bool := decide [c.offOe, c.offDatain, c.offClr, c.offSet].Nodup

/-- `GPIO_BASE` is 4-aligned and `REG_W = 32`. -/
def Cfg.busOk (c : Cfg) : Bool := c.gpioBase % 4 == 0 && c.regW == 32

/-- `TICK_US = 1` and `CLK_PER_TICK >= 1`. -/
def Cfg.tickOk (c : Cfg) : Bool := c.tickUs == 1 && decide (1 ≤ c.clkPerTick)

/-- `T_START_LOW >= 18000 and < 2^16` (R11: 17,999 is refused). -/
def Cfg.startLowOk (c : Cfg) : Bool := decide (18000 ≤ c.tStartLow) && decide (c.tStartLow < 2 ^ 16)

/-- `20 <= T_START_HIGH <= 40`. -/
def Cfg.startHighOk (c : Cfg) : Bool := decide (20 ≤ c.tStartHigh) && decide (c.tStartHigh ≤ 40)

/-- `1 <= POLL_BOUND < 2^16`. -/
def Cfg.pollOk (c : Cfg) : Bool := decide (1 ≤ c.pollBound) && decide (c.pollBound < 2 ^ 16)

/-- `1 <= T_SETTLE < 2^16`. -/
def Cfg.settleOk (c : Cfg) : Bool := decide (1 ≤ c.tSettle) && decide (c.tSettle < 2 ^ 16)

/-- `FRAME_BYTES = 5` and `FRAME_BITS = 8 * FRAME_BYTES` (R12). -/
def Cfg.frameOk (c : Cfg) : Bool := c.frameBytes == 5 && c.frameBits == 8 * c.frameBytes

/-- `2^CNT_W > max(T_START_LOW, T_START_HIGH, POLL_BOUND, T_SETTLE)`. -/
def Cfg.cntOk (c : Cfg) : Bool :=
  decide (max (max c.tStartLow c.tStartHigh) (max c.pollBound c.tSettle) < 2 ^ c.cntW)

/-- A configuration that meets every constraint of Table P1; `OE_INIT` is any 32-bit value. "A configuration
that breaks a constraint of Table P1 is ill-formed; a model refuses it and gives it no meaning" (R10). -/
def Cfg.wf (c : Cfg) : Bool :=
  c.pinOk && c.offsetsAligned && c.offsetsDistinct && c.busOk && c.tickOk && c.startLowOk && c.startHighOk
    && c.pollOk && c.settleOk && c.frameOk && c.cntOk

end Sys2Proof
end

