-- ==== Sys2Proof/Decode.lean ====
section
/-! DEFINITION. The decoder of the three formats (30_encoding.md), total and rejecting by name, and after it the
encoder, both written from R63 to R74. -/

namespace Sys2Proof

/-- Why a word is no instruction. -/
inductive Reject where
  /-- KIND 0xA to 0xF (R69). -/
  | reservedKind
  /-- KIND READ_BIT with PHASE 3 (R69). -/
  | reservedPhase
  /-- BYTE 5 to 7 (R69). -/
  | reservedByte
  /-- KIND FAILED with REASON 0 or 7 (R69). -/
  | reservedReason
  /-- A nonzero bit where R63 requires 0 (R69). -/
  | nonzeroField
  /-- The key of a read of a register whose read is not described (R72, U3). -/
  | undescribedRead
  /-- The key of a write to a register whose write is not described (R72, U3). -/
  | undescribedWrite
  /-- HC = 0 is no command (R74). -/
  | noCommand
  /-- A number too wide for its format, given to `tableWord`. -/
  | tooWide
  deriving DecidableEq, Repr

/-- What the decoder answers. -/
inductive Decoded where
  | instr (i : Instr)
  | reject (r : Reject)
  deriving DecidableEq, Repr

/-- The decoded instruction, if there is one. -/
def Decoded.toOption : Decoded → Option Instr
  | .instr i => some i
  | .reject _ => none

/-! ### Format SW: fields of the state word (R63) -/

/-- KIND, bits 15:12. -/
def StateWord.kind (w : StateWord) : BitVec 4 := w.extractLsb' 12 4

/-- REASON, bits 11:9. -/
def StateWord.reason (w : StateWord) : BitVec 3 := w.extractLsb' 9 3

/-- Bit 8, always 0. -/
def StateWord.reserved (w : StateWord) : BitVec 1 := w.extractLsb' 8 1

/-- PHASE, bits 7:6. -/
def StateWord.phase (w : StateWord) : BitVec 2 := w.extractLsb' 6 2

/-- BYTE, bits 5:3. -/
def StateWord.byteIx (w : StateWord) : Index := w.extractLsb' 3 3

/-- BIT, bits 2:0. -/
def StateWord.bitIx (w : StateWord) : Index := w.extractLsb' 0 3

/-- A state without operands: every field below KIND is 0 (R63). -/
def decodePlain (w : StateWord) (i : Instr) : Decoded :=
  if w.extractLsb' 0 12 = 0#12 then .instr i else .reject .nonzeroField

/-- KIND READ_BIT: the phase selects the row (R65), BYTE and BIT are its operands (R67). -/
def decodeReadBit (w : StateWord) : Decoded :=
  if StateWord.reason w ≠ 0#3 ∨ StateWord.reserved w ≠ 0#1 then .reject .nonzeroField
  else if StateWord.phase w = 3#2 then .reject .reservedPhase
  else if byteIndexOk (StateWord.byteIx w) = false then .reject .reservedByte
  else if StateWord.phase w = 0#2 then .instr (.readBitRise (StateWord.byteIx w) (StateWord.bitIx w))
  else if StateWord.phase w = 1#2 then .instr (.readBitSettle (StateWord.byteIx w) (StateWord.bitIx w))
  else .instr (.readBitFall (StateWord.byteIx w) (StateWord.bitIx w))

/-- A FAILED row without a position: the fields below REASON are 0 (R63). -/
def decodeFailedPlain (w : StateWord) (i : Instr) : Decoded :=
  if w.extractLsb' 0 9 = 0#9 then .instr i else .reject .nonzeroField

/-- A FAILED row with a bit position: bit 8 and PHASE are 0, BYTE is in range (R63, R67). -/
def decodeFailedIndexed (w : StateWord) (i : Index → Index → Instr) : Decoded :=
  if StateWord.reserved w ≠ 0#1 ∨ StateWord.phase w ≠ 0#2 then .reject .nonzeroField
  else if byteIndexOk (StateWord.byteIx w) = false then .reject .reservedByte
  else .instr (i (StateWord.byteIx w) (StateWord.bitIx w))

/-- KIND FAILED: REASON selects the row (R66). -/
def decodeFailed (w : StateWord) : Decoded :=
  match (StateWord.reason w).toNat with
  | 1 => decodeFailedPlain w .failedNoResponse
  | 2 => decodeFailedPlain w .failedStuckLow
  | 3 => decodeFailedPlain w .failedStuckHigh
  | 4 => decodeFailedIndexed w .failedBitTimeout
  | 5 => decodeFailedIndexed w .failedBitStuckHigh
  | 6 => decodeFailedPlain w .failedChecksumMismatch
  | _ => .reject .reservedReason

/-- The state rule a state word selects, by KIND (R64, R68). -/
def decodeStateWord (w : StateWord) : Decoded :=
  match (StateWord.kind w).toNat with
  | 0x0 => decodePlain w .idle
  | 0x1 => decodePlain w .driveStartLow
  | 0x2 => decodePlain w .driveStartHigh
  | 0x3 => decodePlain w .awaitAckLow
  | 0x4 => decodePlain w .awaitAckHigh
  | 0x5 => decodePlain w .awaitAckEnd
  | 0x6 => decodeReadBit w
  | 0x7 => decodePlain w .verifyChecksum
  | 0x8 => decodePlain w .success
  | 0x9 => decodeFailed w
  | _ => .reject .reservedKind

/-! ### Format BK: the access key (R70, R71) -/

/-- W, bit 12: 1 is a write. -/
def AccessKey.isWrite (k : AccessKey) : Bool := k.getLsbD 12

/-- OFF, bits 11:0. -/
def AccessKey.off (k : AccessKey) : Offset := k.extractLsb' 0 12

/-- The bus access a key and its data name under a configuration's offsets (R71). -/
def decodeAccess (c : Cfg) (key : AccessKey) (data : GpioWord) : Decoded :=
  if AccessKey.isWrite key then
    if AccessKey.off key = c.offOe then .instr (.oeWr data)
    else if AccessKey.off key = c.offClr then .instr (.clrWr data)
    else if AccessKey.off key = c.offSet then .instr (.setWr data)
    else .reject .undescribedWrite
  else
    if AccessKey.off key = c.offOe then .instr .oeRd
    else if AccessKey.off key = c.offDatain then .instr .datainRd
    else .reject .undescribedRead

/-! ### Format HC: the host command (R74) -/

/-- HC = 1 is ACQUIRE, HC = 0 is no command. -/
def decodeHost (h : HostBit) : Decoded :=
  if h = 1#1 then .instr .acquire else .reject .noCommand

/-- A decoder tells the formats apart by where the word appears (R79). -/
def decode (c : Cfg) : Presented → Decoded
  | .sw w => decodeStateWord w
  | .bk key data => decodeAccess c key data
  | .hc h => decodeHost h

/-! ### The encoder -/

/-- `{KIND, REASON, 0b0, PHASE, BYTE, BIT}` (R63). -/
def packStateWord (kind : BitVec 4) (reason : BitVec 3) (phase : BitVec 2) (b i : Index) : StateWord :=
  kind ++ reason ++ 0#1 ++ phase ++ b ++ i

/-- The REASON code of a failure kind (R66). -/
def FailKind.code : FailKind → BitVec 3
  | .noResponse => 1#3
  | .stuckLow => 2#3
  | .stuckHigh => 3#3
  | .bitTimeout => 4#3
  | .bitStuckHigh => 5#3
  | .checksumMismatch => 6#3

/-- BIT_TIMEOUT and BIT_STUCK_HIGH record the bit position (R135). -/
def FailKind.indexed : FailKind → Bool
  | .bitTimeout => true
  | .bitStuckHigh => true
  | .noResponse => false
  | .stuckLow => false
  | .stuckHigh => false
  | .checksumMismatch => false

/-- The word of a state without operands: KIND alone. -/
def plainWord (kind : BitVec 4) : StateWord := packStateWord kind 0#3 0#2 0#3 0#3

/-- The word of a READ_BIT state (R65). -/
def readBitWord (phase : BitVec 2) (b i : Index) : StateWord := packStateWord 6#4 0#3 phase b i

/-- The FAILED word of a failure: the position only for the kinds that record it (R63, R136). -/
def failedWord (k : FailKind) (b i : Index) : StateWord :=
  if k.indexed then packStateWord 9#4 k.code 0#2 b i else packStateWord 9#4 k.code 0#2 0#3 0#3

/-- The key `{0, OFF}` of a read (R70). -/
def readKey (off : Offset) : AccessKey := 0#1 ++ off

/-- The key `{1, OFF}` of a write (R70). -/
def writeKey (off : Offset) : AccessKey := 1#1 ++ off

/-- The words of an instruction, in the place where they appear. A read's data is what it returns, so its
request carries 0. -/
def encode (c : Cfg) : Instr → Presented
  | .idle => .sw (plainWord 0x0#4)
  | .driveStartLow => .sw (plainWord 0x1#4)
  | .driveStartHigh => .sw (plainWord 0x2#4)
  | .awaitAckLow => .sw (plainWord 0x3#4)
  | .awaitAckHigh => .sw (plainWord 0x4#4)
  | .awaitAckEnd => .sw (plainWord 0x5#4)
  | .readBitRise b i => .sw (readBitWord 0#2 b i)
  | .readBitSettle b i => .sw (readBitWord 1#2 b i)
  | .readBitFall b i => .sw (readBitWord 2#2 b i)
  | .verifyChecksum => .sw (plainWord 0x7#4)
  | .success => .sw (plainWord 0x8#4)
  | .failedNoResponse => .sw (failedWord .noResponse 0#3 0#3)
  | .failedStuckLow => .sw (failedWord .stuckLow 0#3 0#3)
  | .failedStuckHigh => .sw (failedWord .stuckHigh 0#3 0#3)
  | .failedBitTimeout b i => .sw (failedWord .bitTimeout b i)
  | .failedBitStuckHigh b i => .sw (failedWord .bitStuckHigh b i)
  | .failedChecksumMismatch => .sw (failedWord .checksumMismatch 0#3 0#3)
  | .oeRd => .bk (readKey c.offOe) 0#32
  | .datainRd => .bk (readKey c.offDatain) 0#32
  | .oeWr v => .bk (writeKey c.offOe) v
  | .clrWr v => .bk (writeKey c.offClr) v
  | .setWr v => .bk (writeKey c.offSet) v
  | .acquire => .hc 1#1

/-! ### Words numbered as spec/opcode_table.json numbers them -/

/-- The instruction of a table word. A row of one byte is HC, of two or more is SW or BK: below 2^13 and an
access key at the default offsets is BK, with the write data in the bits above the 16 of the key; all else is
SW (no word is both, R79). How a bare number comes to appear in a place is the model's choice (log 13). -/
def tableWord (nbits w : Nat) : Decoded :=
  if nbits ≤ 8 then
    if w < 2 then decodeHost (BitVec.ofNat 1 w) else .reject .tooWide
  else if 2 ^ 48 ≤ w then .reject .tooWide
  else
    match decodeAccess Cfg.default (BitVec.ofNat 13 w) (BitVec.ofNat 32 (w / 2 ^ 16)) with
    | .instr i => if w % 2 ^ 16 < 2 ^ 13 then .instr i else decodeStateWord (BitVec.ofNat 16 w)
    | .reject _ => if w < 2 ^ 16 then decodeStateWord (BitVec.ofNat 16 w) else .reject .tooWide

/-- The instruction the decoder reads from a table word of `nbits` bits. -/
def decodeTableWord (nbits w : Nat) : Option Instr := (tableWord nbits w).toOption

end Sys2Proof
end

