-- ==== Sys2Proof/Machine/State.lean ====
section
/-! DEFINITION. The state of the machine (10_state.md R20): engine registers, GPIO bank registers, bus event
history, configuration, and the inputs of the host, the line and the other bus masters as plain data. -/

namespace Sys2Proof.Machine

open Sys2Proof

/-- Reasons a step ends in a fault: there are none. "No behaviour in this spec is treated as `fault` or
`stuck`" (93_implementation_defined.md); every failure of the line is a FAILED state word (R135). Safe: no
instruction raises one (log 18). -/
inductive Fault
  deriving DecidableEq, Repr

/-- Reasons a step gives no meaning. All are safe: the model stops where the spec tells a model to refuse. -/
inductive Refusal where
  /-- Raised by an arm of `exec` whose instruction has no meaning yet; no arm is left so. Safe. -/
  | notModelled (mnemonic : String)
  /-- Raised by `step` when the configuration breaks a constraint of Table P1 (R10, U2). Safe. -/
  | illFormedConfig
  /-- Raised by `step` when STATE holds a word of R69, and by a meaning whose BYTE operand is 5 to 7 (R69,
  U1). Safe. -/
  | illegalStateWord
  /-- Raised by `step` when another master writes, in this tick, a register whose write the spec does not
  describe (R72, U3). Safe. -/
  | undescribedWrite
  /-- Raised by `step` when another master drives the engine's pin through CLEARDATAOUT or SETDATAOUT in a
  tick of an acquisition (U7). Safe. -/
  | otherDriverOnPin
  deriving DecidableEq, Repr

/-- One bus access as the bank and the line observe it (R37, R58): `(t, key, data)`, and who issued it. -/
structure BusEvent where
  /-- The tick. -/
  tick : Nat
  /-- The 13-bit access key (R70). -/
  key : AccessKey
  /-- The 32-bit value written or read. -/
  data : GpioWord
  /-- The bus master; R58's history is the events of the engine (log 11). -/
  master : Master
  deriving DecidableEq, Repr

/-- A host command of a program (R78). -/
inductive HostCommand where
  /-- `t: ACQUIRE`: `acq_req` = 1 in tick t. -/
  | acquire
  /-- `t: RESET`: `rst` = 1 in tick t. -/
  | reset
  deriving DecidableEq, Repr

/-- A host line `t: ACQUIRE` or `t: RESET` (R78). -/
structure HostLine where
  tick : Nat
  command : HostCommand
  deriving DecidableEq, Repr

/-- A segment of the line trace: what DATAIN returns for `count` consecutive ticks. Bit PIN of the word is the
level (R54, R78); the other bits are any value (U10). -/
structure Segment where
  word : GpioWord
  count : Nat
  deriving DecidableEq, Repr

/-- A line trace: segments counted from an anchor tick; the last one persists (R78). -/
structure LineTrace where
  anchor : Nat
  segments : List Segment
  deriving DecidableEq, Repr

/-- An access another bus master makes in a tick, after `slot` of the engine's accesses of that tick (R60:
it "may fall anywhere in the engine's access sequence"). -/
structure OtherAccess where
  tick : Nat
  slot : Nat
  key : AccessKey
  data : GpioWord
  deriving DecidableEq, Repr

/-- The machine. -/
structure State where
  /-- The configuration (Table P1), fixed for the life of a model (R57). -/
  cfg : Cfg
  /-- STATE, the state word; the engine's program counter (R21, R38). -/
  stateReg : StateWord
  /-- CNT, a `CNT_W`-bit unsigned counter (R23), as its value; it is counted modulo 2^CNT_W (log 12). -/
  cnt : Nat
  /-- SR, the shift register (R24). -/
  sr : Frame
  /-- DATA, the result register (R25). -/
  data : Frame
  /-- OE, the bank's direction register (R31). -/
  oe : GpioWord
  /-- DOUT, the bank's output latch (R35). -/
  dout : GpioWord
  /-- The number of the current tick in the run, which goes on through `rst` as R157's "tick t+1" and program P5
  count it. Inputs, `Line` and bus events are placed by it (R54, R58, R78). DEDUCED, log 6. -/
  tick : Nat
  /-- The number of the current tick from the last reset (R15): 0 in the first tick after it (DEDUCED, log 6). -/
  sinceReset : Nat
  /-- How many accesses the engine has issued in the current tick; 0 between ticks (log 8). -/
  accesses : Nat
  /-- The bus event history (R37, R58), newest first. -/
  history : List BusEvent
  /-- The host's schedule (R78). -/
  host : List HostLine
  /-- The line environment's trace (R54, R78). -/
  trace : LineTrace
  /-- The other masters' accesses (R60, R72). -/
  others : List OtherAccess
  deriving DecidableEq, Repr

/-- The reset state (R30) under a configuration and an output latch: the launch state of a program (R162).
The bank is not reset by the engine; OE starts at `OE_INIT` (R31), DOUT at any value (U4). -/
def State.launch (c : Cfg) (dout : GpioWord) : State where
  cfg := c
  stateReg := 0x0000#16
  cnt := 0
  sr := 0#40
  data := 0#40
  oe := c.oeInit
  dout := dout
  tick := 0
  sinceReset := 0
  accesses := 0
  history := []
  host := []
  trace := ⟨0, []⟩
  others := []

/-- The machine right after reset: Table P1's defaults, DOUT 0 (DESIGN CHOICE, log 4), and no inputs yet. -/
def State.reset : State := State.launch Cfg.default 0x00000000#32

end Sys2Proof.Machine
end

