-- ==== Sys2Proof/Machine/Operands.lean ====
section
/-! DEFINITION. Operand forms: the registers' field and update operations, the inputs of the current tick, the
next-bit function and the bytes of a frame. -/

namespace Sys2Proof.Machine

open Sys2Proof

/-! ### Writing registers -/

/-- `STATE <- w`, which "sets CNT to 0" with every change of state (R14, R23). -/
def State.goto (s : State) (w : StateWord) : State := { s with stateReg := w, cnt := 0 }

/-- `CNT <- n`. -/
def State.setCnt (s : State) (n : Nat) : State := { s with cnt := n }

/-- `SR <- v`. -/
def State.setSr (s : State) (v : Frame) : State := { s with sr := v }

/-- `DATA <- v`. -/
def State.setData (s : State) (v : Frame) : State := { s with data := v }

/-- `OE <- v` (R83). -/
def State.setOe (s : State) (v : GpioWord) : State := { s with oe := v }

/-- `DOUT <- v`. -/
def State.setDout (s : State) (v : GpioWord) : State := { s with dout := v }

/-- Records a bus event of the current tick (R58). -/
def State.record (s : State) (m : Master) (key : AccessKey) (v : GpioWord) : State :=
  { s with history := ⟨s.tick, key, v, m⟩ :: s.history }

/-- Counts one engine access of the current tick. -/
def State.countAccess (s : State) : State := { s with accesses := s.accesses + 1 }

/-- The next tick's number from the last reset is `n` (R15). -/
def State.setSinceReset (s : State) (n : Nat) : State := { s with sinceReset := n }

/-- The tick ends: the next tick's numbers, no engine access issued yet (R15). -/
def State.nextTick (s : State) : State :=
  { s with tick := s.tick + 1, sinceReset := s.sinceReset + 1, accesses := 0 }

/-- `CNT + 1`, which wraps modulo 2^CNT_W (R13). -/
def State.cntSucc (s : State) : Nat := (s.cnt + 1) % 2 ^ s.cfg.cntW

/-! ### The inputs of the current tick -/

/-- A host line gives command `c` at tick `t`. -/
def HostLine.gives (h : HostLine) (t : Nat) (c : HostCommand) : Bool := h.tick == t && h.command == c

/-- The `rst` input in the current tick (R28, R78). -/
def State.rst (s : State) : Bool := s.host.any fun h => h.gives s.tick .reset

/-- The `acq_req` input in the current tick (R28, R78, R97). -/
def State.acqReq (s : State) : Bool := s.host.any fun h => h.gives s.tick .acquire

/-- The HC word of the current tick (R74). -/
def State.hostBit (s : State) : HostBit := if s.acqReq then 1#1 else 0#1

/-- The word of a trace `k` ticks after its anchor; the last segment persists (R78). -/
def traceWord : List Segment → Nat → Option GpioWord
  | [], _ => none
  | [seg], _ => some seg.word
  | seg :: next :: rest, k => if k < seg.count then some seg.word else traceWord (next :: rest) (k - seg.count)

/-- What the trace says of a tick: nothing before its anchor (log 7). -/
def LineTrace.wordAt (l : LineTrace) (t : Nat) : Option GpioWord :=
  if l.anchor ≤ t then traceWord l.segments (t - l.anchor) else none

/-- What a DATAIN read returns in the current tick: the environment's draw (R32, R54). -/
def State.datainWord (s : State) : GpioWord := (s.trace.wordAt s.tick).getD (Config.datainDraw s.tick)

/-- `Line(t)` for the current tick: bit PIN of DATAIN (R14, R54). -/
def State.line (s : State) : Bool := s.datainWord.getLsbD s.cfg.pin

/-- A program's `LINE <0|1> x<n>` (R78): the level at bit PIN, the other bits 0 as in program P1. -/
def Segment.line (c : Cfg) (level : Bool) (n : Nat) : Segment := ⟨if level then c.mask else 0#32, n⟩

/-- No other master makes an access in the current tick. -/
def State.quiet (s : State) : Bool := s.others.all fun a => a.tick != s.tick

/-! ### State words of the data phase -/

/-- The state after the last phase of bit (b, i) (R118). -/
def nextBit (b i : Index) : StateWord :=
  if i.toNat < 7 then readBitWord 0#2 b (i + 1#3)
  else if b.toNat < 4 then readBitWord 0#2 (b + 1#3) 0#3
  else plainWord 0x7#4

/-! ### Frames -/

/-- `{SR[38:0], lvl}`: shift left one, the new bit enters bit 0 (R115). -/
def shiftIn (f : Frame) (level : Bool) : Frame := f.extractLsb' 0 39 ++ BitVec.ofBool level

/-- `byte_k = SR[39-8k : 32-8k]` for k in 0..4 (R117). -/
def frameByte (f : Frame) (k : Nat) : Byte := f.extractLsb' (32 - 8 * k) 8

/-- The low 8 bits of the 10-bit sum of bytes 0 to 3 (R125). -/
def frameSum (f : Frame) : Byte :=
  (((frameByte f 0).setWidth 10 + (frameByte f 1).setWidth 10 + (frameByte f 2).setWidth 10
    + (frameByte f 3).setWidth 10 : BitVec 10)).extractLsb' 0 8

/-- The checksum holds: byte 4 is the sum (R125). -/
def checksumOk (f : Frame) : Bool := frameByte f 4 == frameSum f

end Sys2Proof.Machine
end

