-- ==== Sys2Proof/Machine/Flags.lean ====
section
/-! DEFINITION. The status signals and output ports (10_state.md R27, R28): pure functions of STATE and DATA. -/

namespace Sys2Proof.Machine

open Sys2Proof

/-- `STATE.KIND in {IDLE, SUCCESS, FAILED}`: the states that accept ACQUIRE (R97). -/
def restsIn (w : StateWord) : Bool :=
  StateWord.kind w == 0x0#4 || StateWord.kind w == 0x8#4 || StateWord.kind w == 0x9#4

/-- `BUSY = (STATE.KIND not in {IDLE, SUCCESS, FAILED})` (R27). -/
def State.busy (s : State) : Bool := !restsIn s.stateReg

/-- `DONE = (STATE.KIND in {SUCCESS, FAILED})` (R27). -/
def State.done (s : State) : Bool :=
  StateWord.kind s.stateReg == 0x8#4 || StateWord.kind s.stateReg == 0x9#4

/-- `VALID = (STATE.KIND == SUCCESS)` (R27). -/
def State.valid (s : State) : Bool := StateWord.kind s.stateReg == 0x8#4

/-- The `state_word` port (R28). -/
def State.stateWordPort (s : State) : StateWord := s.stateReg

/-- The `data` port (R28). -/
def State.dataPort (s : State) : Frame := s.data

/-- The reading a consumer may use: "VALID gates the use of DATA" (R27). Its bytes are `frameByte` 0 to 4,
uninterpreted (R131). -/
def State.reading (s : State) : Option Frame := if s.valid then some s.data else none

/-- What the pin puts on the line: DOUT[PIN] while OE[PIN] = 0, nothing while OE[PIN] = 1 (R36). -/
def State.drives (s : State) : Option Bool :=
  if s.oe.getLsbD s.cfg.pin then none else some (s.dout.getLsbD s.cfg.pin)

end Sys2Proof.Machine
end

