-- ==== Sys2Proof/Machine/Ops.lean ====
section
/-! DEFINITION. The shared operations: bus accesses of any master (20_memory.md, 40_register_io.md), the RegisterIO
primitives, the bounded poll (R103), raising a failure (R136) and the start of an acquisition (R98), and what a
tick does around its state rule (R95). -/

namespace Sys2Proof.Machine

open Sys2Proof

/-! ### Bus accesses (R81 to R85), by the engine or by another master -/

/-- OE_RD: returns OE (R81). -/
def State.oeRead (m : Master) (s : State) : GpioWord × State :=
  (s.oe, s.record m (readKey s.cfg.offOe) s.oe)

/-- DATAIN_RD: returns the environment's word of this tick, whose bit PIN is `Line(t)` (R82). -/
def State.datainRead (m : Master) (s : State) : GpioWord × State :=
  (s.datainWord, s.record m (readKey s.cfg.offDatain) s.datainWord)

/-- OE_WR: `OE <- v` (R83). -/
def State.oeWrite (m : Master) (v : GpioWord) (s : State) : State :=
  (s.setOe v).record m (writeKey s.cfg.offOe) v

/-- CLR_WR: `DOUT <- DOUT & ~v` (R33, R84). -/
def State.clrWrite (m : Master) (v : GpioWord) (s : State) : State :=
  (s.setDout (s.dout &&& ~~~v)).record m (writeKey s.cfg.offClr) v

/-- SET_WR: `DOUT <- DOUT | v` (R34, R85). -/
def State.setWrite (m : Master) (v : GpioWord) (s : State) : State :=
  (s.setDout (s.dout ||| v)).record m (writeKey s.cfg.offSet) v

/-- The bus address of an access (R40, R45): `GPIO_BASE + off`. -/
def BusEvent.address (c : Cfg) (e : BusEvent) : Nat := c.gpioBase + (AccessKey.off e.key).toNat

/-- The engine's bus event history in issue order (R58). -/
def State.busHistory (s : State) : List BusEvent := (s.history.filter fun e => e.master == .engine).reverse

/-! ### The other masters (R60, R72, U3, U5, U7) -/

/-- Another master's access, applied to the bank. A read of an undescribed register returns a free value
(U3). A write to one is refused by `step` before any access of its tick, so it is never applied there. -/
def State.applyOther (s : State) (a : OtherAccess) : State :=
  match decodeAccess s.cfg a.key a.data with
  | .instr .oeRd => (s.oeRead .other).2
  | .instr .datainRd => (s.datainRead .other).2
  | .instr (.oeWr v) => s.oeWrite .other v
  | .instr (.clrWr v) => s.clrWrite .other v
  | .instr (.setWr v) => s.setWrite .other v
  | .instr _ => s
  | .reject .undescribedRead => s.record .other a.key (Config.undescribedRead s.history.length)
  | .reject _ => s

/-- The accesses of other masters that fall before the engine's next access of this tick. -/
def State.othersBefore (s : State) : State :=
  (s.others.filter fun a => a.tick == s.tick && a.slot == s.accesses).foldl State.applyOther s

/-- The accesses of other masters that fall after the engine's last access of this tick. -/
def State.othersAfter (s : State) : State :=
  (s.others.filter fun a => a.tick == s.tick && decide (s.accesses ≤ a.slot)).foldl State.applyOther s

/-- This access is a write to a register whose write the spec does not describe (R72). -/
def OtherAccess.undescribedWrite (c : Cfg) (a : OtherAccess) : Bool :=
  decodeAccess c a.key a.data == .reject .undescribedWrite

/-- This access sets or clears the engine's own bit of DOUT. -/
def OtherAccess.drivesPin (c : Cfg) (a : OtherAccess) : Bool :=
  match decodeAccess c a.key a.data with
  | .instr (.clrWr v) => v.getLsbD c.pin
  | .instr (.setWr v) => v.getLsbD c.pin
  | _ => false

/-- Some other master's access of this tick is one the spec refuses for its register (U3). -/
def State.undescribedWriteNow (s : State) : Bool :=
  s.others.any fun a => a.tick == s.tick && a.undescribedWrite s.cfg

/-- The current tick belongs to an acquisition: the engine is busy, or it accepts an ACQUIRE (R97, R166). -/
def State.inAcquisition (s : State) : Bool := s.busy || (s.acqReq && !s.rst)

/-- Another master drives the pin in a tick of an acquisition (U7). What counts as such a tick is the model's
choice, and so is that a tick with `rst` = 1 in which the engine is still busy counts (DESIGN CHOICE, log 10). -/
def State.otherDriverNow (s : State) : Bool :=
  s.inAcquisition && s.others.any fun a => a.tick == s.tick && a.drivesPin s.cfg

/-! ### The engine's accesses, one at a time and in order (R29, R52), and the primitives (R86 to R90) -/

/-- The engine's OE_RD. -/
def State.engineOeRd (s : State) : GpioWord × State :=
  ((s.othersBefore.oeRead .engine).1, (s.othersBefore.oeRead .engine).2.countAccess)

/-- The engine's DATAIN_RD. -/
def State.engineDatainRd (s : State) : GpioWord × State :=
  ((s.othersBefore.datainRead .engine).1, (s.othersBefore.datainRead .engine).2.countAccess)

/-- The engine's OE_WR. -/
def State.engineOeWr (v : GpioWord) (s : State) : State := (s.othersBefore.oeWrite .engine v).countAccess

/-- The engine's CLR_WR. -/
def State.engineClrWr (v : GpioWord) (s : State) : State := (s.othersBefore.clrWrite .engine v).countAccess

/-- The engine's SET_WR. -/
def State.engineSetWr (v : GpioWord) (s : State) : State := (s.othersBefore.setWrite .engine v).countAccess

/-- SETDIR.OUT: a read-modify-write of OE that clears bit PIN (R86). -/
def State.setDirOut (s : State) : State :=
  s.engineOeRd.2.engineOeWr (s.engineOeRd.1 &&& ~~~s.cfg.mask)

/-- SETDIR.IN: a read-modify-write of OE that sets bit PIN (R87). -/
def State.setDirIn (s : State) : State :=
  s.engineOeRd.2.engineOeWr (s.engineOeRd.1 ||| s.cfg.mask)

/-- READLEVEL: bit PIN of one DATAIN_RD (R88). -/
def State.readLevel (s : State) : Bool × State :=
  (s.engineDatainRd.1.getLsbD s.cfg.pin, s.engineDatainRd.2)

/-- DRIVE.HIGH: `SET_WR MASK` (R89). -/
def State.driveHigh (s : State) : State := s.engineSetWr s.cfg.mask

/-- DRIVE.LOW: `CLR_WR MASK` (R90). -/
def State.driveLow (s : State) : State := s.engineClrWr s.cfg.mask

/-! ### Failures, and the one way out of them -/

/-- `raise Fail(kind, b, i)` (R136), the engine's only exception entry: STATE takes the FAILED word and CNT is 0. No
access; SR, DATA, OE and DOUT keep their values. Nothing is saved but the word, and there is no handler (R146). -/
def State.raiseFail (s : State) (k : FailKind) (b i : Index) : State := s.goto (failedWord k b i)

/-- The start of an acquisition from IDLE, SUCCESS or FAILED (R98): it clears what a former one left, and is the
only way out of a failure but reset; nothing is restored (R147). -/
def State.startAcquisition (s : State) : State :=
  ((((s.setSr 0#40).setData 0#40).setDirOut).driveLow).goto (plainWord 0x1#4)

/-- A resting state's rule: an ACQUIRE starts an acquisition, otherwise nothing happens (R98, R99, R127, R128). -/
def State.rest (s : State) : State := if s.acqReq then s.startAcquisition else s

/-! ### The bounded poll and the hold -/

/-- `POLL(target, next, kind)` in a state whose BYTE and BIT fields are b and i (R103): one read; the target
level moves on, and the `POLL_BOUND`-th miss fails. -/
def State.poll (s : State) (target : Bool) (next : StateWord) (k : FailKind) (b i : Index) : State :=
  if s.readLevel.1 == target then s.readLevel.2.goto next
  else if s.cntSucc = s.cfg.pollBound then s.readLevel.2.raiseFail k b i
  else s.readLevel.2.setCnt s.cntSucc

/-- A hold of `bound` ticks: in the last one `act` runs, in the others CNT counts (R100, R101, R115). -/
def State.hold (s : State) (bound : Nat) (act : State → State) : State :=
  if s.cntSucc = bound then act s else s.setCnt s.cntSucc

/-- A state rule with a BYTE operand is given meaning only for the bytes a frame has (R67, R69). -/
def withByteIndex (b : Index) (t : State) : Host.Outcome State Fault Refusal :=
  if byteIndexOk b then .next t else .refused .illegalStateWord

/-! ### Around the state rule of a tick (R95) -/

/-- The instruction of this tick: the state rule the STATE word selects, or ACQUIRE where `acq_req` is 1 in a
state that accepts it (R62, R95, R97, R102). -/
def State.selected (s : State) : Decoded :=
  match decodeStateWord s.stateReg with
  | .reject r => .reject r
  | .instr i =>
    match decodeHost s.hostBit with
    | .instr h => if restsIn s.stateReg then .instr h else .instr i
    | .reject _ => .instr i

/-- Reset (R157): the engine registers take their reset values; no access, and the bank keeps its own (R159). -/
def State.resetEngine (s : State) : State :=
  (((s.goto (plainWord 0x0#4)).setSr 0#40).setData 0#40)

/-- The end of a tick: the other masters' remaining accesses, then the next tick's number. -/
def State.endTick (s : State) : State := s.othersAfter.nextTick

/-- A tick with `rst` = 1 (R157): the engine resets, the other masters' accesses of the tick happen, and the next
tick is number 0 from this reset (R15, log 6). -/
def State.resetTick (s : State) : State := s.resetEngine.endTick.setSinceReset 0

/-! ### Presenting a program or an instruction to the machine -/

/-- A program's host lines and line trace, given to its start state (R78). -/
def State.load (s : State) (host : List HostLine) (trace : LineTrace) : State := { s with host := host, trace := trace }

/-- `s` without the inputs of its current tick. -/
def State.clearInputs (s : State) : State :=
  { s with host := s.host.filter (fun h => h.tick != s.tick), others := s.others.filter (fun a => a.tick != s.tick) }

/-- A word placed where the machine takes words of its format (R61): a state word in STATE, a host bit on
`acq_req` of this tick, an access key on the bus from another master in this tick (R72), the last two with the
engine at rest (log 13). -/
def State.present (s : State) : Presented → State
  | .sw w => { s with stateReg := w }
  | .hc h =>
    { s with
      stateReg := if restsIn s.stateReg then s.stateReg else plainWord 0x0#4
      host := if h = 1#1 then ⟨s.tick, .acquire⟩ :: s.host else s.host }
  | .bk key data => { s with stateReg := plainWord 0x0#4, others := ⟨s.tick, s.accesses, key, data⟩ :: s.others }

end Sys2Proof.Machine
end

