-- ==== Sys2Proof/Machine/BitSampler.lean ====
section
/-! DEFINITION. The pulse-width sampler (42_bit_sampler.md): the three phases of a bit. -/

namespace Sys2Proof.Machine

open Sys2Proof

/-- READ_BIT.RISE b,i (R114): wait for the data pulse. -/
def execReadBitRise (b i : Index) (s : State) : Host.Outcome State Fault Refusal :=
  withByteIndex b (s.poll true (readBitWord 1#2 b i) .bitTimeout b i)

/-- The sample at the end of SETTLE: the level enters SR[0] (R115). -/
def State.sample (b i : Index) (s : State) : State :=
  (s.readLevel.2.setSr (shiftIn s.sr s.readLevel.1)).goto (readBitWord 2#2 b i)

/-- READ_BIT.SETTLE b,i (R115): sample `T_SETTLE` ticks after the detecting read. -/
def execReadBitSettle (b i : Index) (s : State) : Host.Outcome State Fault Refusal :=
  withByteIndex b (s.hold s.cfg.tSettle (State.sample b i))

/-- READ_BIT.FALL b,i (R116): wait for the end of the pulse, then the next bit or the checksum (R118). -/
def execReadBitFall (b i : Index) (s : State) : Host.Outcome State Fault Refusal :=
  withByteIndex b (s.poll false (nextBit b i) .bitStuckHigh b i)

end Sys2Proof.Machine
end

