-- ==== Sys2Proof/Machine/Checksum.lean ====
section
/-! DEFINITION. The checksum validator and the terminal states (43_checksum.md). -/

namespace Sys2Proof.Machine

open Sys2Proof

/-- VERIFY_CHECKSUM (R125): the frame becomes DATA exactly when its checksum holds. -/
def execVerifyChecksum (s : State) : Host.Outcome State Fault Refusal :=
  .next (if checksumOk s.sr then (s.setData s.sr).goto (plainWord 0x8#4) else s.raiseFail .checksumMismatch 0#3 0#3)

/-- SUCCESS (R127): the result is held until the next ACQUIRE. -/
def execSuccess (s : State) : Host.Outcome State Fault Refusal := .next s.rest

/-- FAILED.NO_RESPONSE (R128). -/
def execFailedNoResponse (s : State) : Host.Outcome State Fault Refusal := .next s.rest

/-- FAILED.STUCK_LOW (R128). -/
def execFailedStuckLow (s : State) : Host.Outcome State Fault Refusal := .next s.rest

/-- FAILED.STUCK_HIGH (R128). -/
def execFailedStuckHigh (s : State) : Host.Outcome State Fault Refusal := .next s.rest

/-- FAILED.BIT_TIMEOUT b,i (R128): the position does not change what the state does. -/
def execFailedBitTimeout (b _i : Index) (s : State) : Host.Outcome State Fault Refusal := withByteIndex b s.rest

/-- FAILED.BIT_STUCK_HIGH b,i (R128). -/
def execFailedBitStuckHigh (b _i : Index) (s : State) : Host.Outcome State Fault Refusal := withByteIndex b s.rest

/-- FAILED.CHECKSUM_MISMATCH (R128). -/
def execFailedChecksumMismatch (s : State) : Host.Outcome State Fault Refusal := .next s.rest

end Sys2Proof.Machine
end

