-- ==== Sys2Proof/Machine/RegisterIO.lean ====
section
/-! DEFINITION. RegisterIO (40_register_io.md): the meanings of the five bus accesses as the engine issues them,
and the primitives' expansions (30_encoding.md R77). No access raises a failure (R80). -/

namespace Sys2Proof.Machine

open Sys2Proof

/-- OE_RD (R81). The value read is the event's data. -/
def execOeRd (s : State) : Host.Outcome State Fault Refusal := .next s.engineOeRd.2

/-- DATAIN_RD (R82). -/
def execDatainRd (s : State) : Host.Outcome State Fault Refusal := .next s.engineDatainRd.2

/-- OE_WR v (R83). -/
def execOeWr (v : GpioWord) (s : State) : Host.Outcome State Fault Refusal := .next (s.engineOeWr v)

/-- CLR_WR v (R84). -/
def execClrWr (v : GpioWord) (s : State) : Host.Outcome State Fault Refusal := .next (s.engineClrWr v)

/-- SET_WR v (R85). -/
def execSetWr (v : GpioWord) (s : State) : Host.Outcome State Fault Refusal := .next (s.engineSetWr v)

/-- The RegisterIO primitives, which have no encodings of their own (R77). -/
inductive Primitive where
  /-- SETDIR.OUT (R86). -/
  | setDirOut
  /-- SETDIR.IN (R87). -/
  | setDirIn
  /-- READLEVEL (R88). -/
  | readLevel
  /-- DRIVE.HIGH (R89). -/
  | driveHigh
  /-- DRIVE.LOW (R90). -/
  | driveLow
  deriving DecidableEq, Repr

/-- What a primitive expands to (R77), where `v` is the value its OE_RD returns. -/
def Primitive.expansion (c : Cfg) (v : GpioWord) : Primitive → List Instr
  | .setDirOut => [.oeRd, .oeWr (v &&& ~~~c.mask)]
  | .setDirIn => [.oeRd, .oeWr (v ||| c.mask)]
  | .readLevel => [.datainRd]
  | .driveHigh => [.setWr c.mask]
  | .driveLow => [.clrWr c.mask]

/-- A primitive as the sequencer's rules run it. -/
def Primitive.run (s : State) : Primitive → State
  | .setDirOut => s.setDirOut
  | .setDirIn => s.setDirIn
  | .readLevel => s.readLevel.2
  | .driveHigh => s.driveHigh
  | .driveLow => s.driveLow

end Sys2Proof.Machine
end

