-- ==== Sys2Proof/Machine/Sequencer.lean ====
section
/-! DEFINITION. The sequencer (41_sequencer.md): ACQUIRE, IDLE, the start sequence and the handshake. -/

namespace Sys2Proof.Machine

open Sys2Proof

/-- ACQUIRE (R97, R98, R102): no effect under reset or while the engine is busy. -/
def execAcquire (s : State) : Host.Outcome State Fault Refusal :=
  .next (if s.rst = false ∧ restsIn s.stateReg = true then s.startAcquisition else s)

/-- IDLE (R98, R99). -/
def execIdle (s : State) : Host.Outcome State Fault Refusal := .next s.rest

/-- DRIVE_START_LOW (R100): after `T_START_LOW` ticks the line is driven high. -/
def execDriveStartLow (s : State) : Host.Outcome State Fault Refusal :=
  .next (s.hold s.cfg.tStartLow fun s => s.driveHigh.goto (plainWord 0x2#4))

/-- DRIVE_START_HIGH (R101): after `T_START_HIGH` ticks the line is released. -/
def execDriveStartHigh (s : State) : Host.Outcome State Fault Refusal :=
  .next (s.hold s.cfg.tStartHigh fun s => s.setDirIn.goto (plainWord 0x3#4))

/-- AWAIT_ACK_LOW (R105). -/
def execAwaitAckLow (s : State) : Host.Outcome State Fault Refusal :=
  .next (s.poll false (plainWord 0x4#4) .noResponse 0#3 0#3)

/-- AWAIT_ACK_HIGH (R106). -/
def execAwaitAckHigh (s : State) : Host.Outcome State Fault Refusal :=
  .next (s.poll true (plainWord 0x5#4) .stuckLow 0#3 0#3)

/-- AWAIT_ACK_END (R107). -/
def execAwaitAckEnd (s : State) : Host.Outcome State Fault Refusal :=
  .next (s.poll false (readBitWord 0#2 0#3 0#3) .stuckHigh 0#3 0#3)

end Sys2Proof.Machine
end

