-- ==== Sys2Proof/Machine/Dispatch.lean ====
section
/-! DEFINITION. One arm per row of the opcode table. -/

namespace Sys2Proof.Machine

open Sys2Proof

/-- The meaning of an instruction. -/
def exec (i : Instr) (s : State) : Host.Outcome State Fault Refusal :=
  match i with
  | .idle => Sys2Proof.Machine.execIdle s
  | .driveStartLow => Sys2Proof.Machine.execDriveStartLow s
  | .driveStartHigh => Sys2Proof.Machine.execDriveStartHigh s
  | .awaitAckLow => Sys2Proof.Machine.execAwaitAckLow s
  | .awaitAckHigh => Sys2Proof.Machine.execAwaitAckHigh s
  | .awaitAckEnd => Sys2Proof.Machine.execAwaitAckEnd s
  | .readBitRise b k => Sys2Proof.Machine.execReadBitRise b k s
  | .readBitSettle b k => Sys2Proof.Machine.execReadBitSettle b k s
  | .readBitFall b k => Sys2Proof.Machine.execReadBitFall b k s
  | .verifyChecksum => Sys2Proof.Machine.execVerifyChecksum s
  | .success => Sys2Proof.Machine.execSuccess s
  | .failedNoResponse => Sys2Proof.Machine.execFailedNoResponse s
  | .failedStuckLow => Sys2Proof.Machine.execFailedStuckLow s
  | .failedStuckHigh => Sys2Proof.Machine.execFailedStuckHigh s
  | .failedBitTimeout b k => Sys2Proof.Machine.execFailedBitTimeout b k s
  | .failedBitStuckHigh b k => Sys2Proof.Machine.execFailedBitStuckHigh b k s
  | .failedChecksumMismatch => Sys2Proof.Machine.execFailedChecksumMismatch s
  | .oeRd => Sys2Proof.Machine.execOeRd s
  | .datainRd => Sys2Proof.Machine.execDatainRd s
  | .oeWr v => Sys2Proof.Machine.execOeWr v s
  | .clrWr v => Sys2Proof.Machine.execClrWr v s
  | .setWr v => Sys2Proof.Machine.execSetWr v s
  | .acquire => Sys2Proof.Machine.execAcquire s

end Sys2Proof.Machine
end

