-- ==== Sys2Proof/Machine/Step.lean ====
section
/-! DEFINITION. One step is one tick of 1 µs (41_sequencer.md R95). -/

namespace Sys2Proof.Machine

open Sys2Proof

/-- The step at the current tick (R95): what a model refuses for its configuration and its bus (R10, U3, U7), then
`rst` (R157, R160), otherwise exactly one instruction, and the end of the tick. Where a tick has `rst` = 1 and another
master makes an access of U3 or U7, the spec says both that the engine resets (R157) and that a model refuses, and
names no winner: that the tick is refused is the model's choice (DESIGN CHOICE, log 10). An illegal state word does not
stop a reset (DESIGN CHOICE, log 14). -/
def step (s : State) : Host.Outcome State Fault Refusal :=
  if s.cfg.wf = false then .refused .illFormedConfig
  else if s.undescribedWriteNow then .refused .undescribedWrite
  else if s.otherDriverNow then .refused .otherDriverOnPin
  else if s.rst then .next s.resetTick
  else
    match s.selected with
    | .reject _ => .refused .illegalStateWord
    | .instr i =>
      match exec i s with
      | .next t => .next t.endTick
      | .fault r => .fault r
      | .refused r => .refused r

/-- `s` with a table word placed where the next step takes it, and no other input in that tick. A word the
decoder refuses goes to STATE, which is the only place that holds words between ticks. -/
def State.withFetchWord (s : State) (nbits w : Nat) : State :=
  match tableWord nbits w with
  | .instr i => s.clearInputs.present (encode s.cfg i)
  | .reject _ => s.clearInputs.present (.sw (BitVec.ofNat 16 w))

end Sys2Proof.Machine
end

