-- ==== Sys2Proof/Machine/Text.lean ====
section
/-! DEFINITION. The spec's text syntax of state words and bus events (30_encoding.md R75, R76). -/

namespace Sys2Proof.Machine

open Sys2Proof

/-- A hexadecimal digit, in capitals as the spec writes them. -/
def hexDigit (n : Nat) : Char := "0123456789ABCDEF".toList.getD (n % 16) '0'

/-- The `k` low hexadecimal digits of a number, the most significant first. -/
def hexDigits : Nat → Nat → List Char
  | 0, _ => []
  | k + 1, n => hexDigit (n / 16 ^ k) :: hexDigits k n

/-- A 32-bit value in hexadecimal, `0x` and eight digits (log 19). -/
def hexWord (v : GpioWord) : String := String.ofList ('0' :: 'x' :: hexDigits 8 v.toNat)

/-- An instruction's operands: indices as `b,i` in decimal (R75), write data in hexadecimal (R76). -/
def operandText : Instr → Option String
  | .readBitRise b i => some (Nat.repr b.toNat ++ "," ++ Nat.repr i.toNat)
  | .readBitSettle b i => some (Nat.repr b.toNat ++ "," ++ Nat.repr i.toNat)
  | .readBitFall b i => some (Nat.repr b.toNat ++ "," ++ Nat.repr i.toNat)
  | .failedBitTimeout b i => some (Nat.repr b.toNat ++ "," ++ Nat.repr i.toNat)
  | .failedBitStuckHigh b i => some (Nat.repr b.toNat ++ "," ++ Nat.repr i.toNat)
  | .oeWr v => some (hexWord v)
  | .clrWr v => some (hexWord v)
  | .setWr v => some (hexWord v)
  | _ => none

/-- `MNEMONIC` or `MNEMONIC b,i` (R75). -/
def instrText (i : Instr) : String :=
  match operandText i with
  | some t => i.mnemonic ++ " " ++ t
  | none => i.mnemonic

/-- `t: MNEMONIC data` (R76), where the key names an access of the bank. -/
def BusEvent.text (c : Cfg) (e : BusEvent) : Option String :=
  match decodeAccess c e.key e.data with
  | .instr i => some (Nat.repr e.tick ++ ": " ++ i.mnemonic ++ " " ++ hexWord e.data)
  | .reject _ => none

end Sys2Proof.Machine
end

