-- ==== Sys2Proof/Safety.lean ====
section
/-! DEFINITION. What the statements are about: the inputs of later ticks, the premises of the spec (R166), the
invariants of the machine, the time an acquisition can still take (R173, R174) and what a run samples (R117). -/

namespace Sys2Proof

/-- The instructions whose states rest: IDLE, SUCCESS and FAILED (R97). -/
def Instr.rests : Instr → Bool
  | .idle => true
  | .success => true
  | .failedNoResponse => true
  | .failedStuckLow => true
  | .failedStuckHigh => true
  | .failedBitTimeout _ _ => true
  | .failedBitStuckHigh _ _ => true
  | .failedChecksumMismatch => true
  | _ => false

end Sys2Proof

namespace Sys2Proof.Machine

open Sys2Proof

/-! ### Inputs -/

/-- `Line(t)` at any tick (R54), as State's environment gives it. -/
def State.lineAt (s : State) (t : Nat) : Bool :=
  ((s.trace.wordAt t).getD (Config.datainDraw t)).getLsbD s.cfg.pin

/-- In the `n` ticks from now on no `rst` is given, and no other master makes an access that the spec tells a
model to refuse (U3, U7). ACQUIREs, the line and every other access are free. -/
def State.calm (s : State) (n : Nat) : Prop :=
  (∀ h ∈ s.host, h.command = .reset → h.tick < s.tick ∨ s.tick + n ≤ h.tick) ∧
  (∀ a ∈ s.others, (a.tick < s.tick ∨ s.tick + n ≤ a.tick) ∨
    (a.undescribedWrite s.cfg = false ∧ a.drivesPin s.cfg = false))

/-- The exclusivity premise of R166 in the current tick: no other master writes OE or drives the pin. -/
def State.exclusive (s : State) : Bool :=
  s.others.all fun a =>
    a.tick != s.tick || (AccessKey.isWrite a.key == false || AccessKey.off a.key != s.cfg.offOe) && !a.drivesPin s.cfg

/-- This access writes bit `n` of OE (any OE_WR does), or sets or clears bit `n` of DOUT. -/
def OtherAccess.touches (c : Cfg) (n : Nat) (a : OtherAccess) : Bool :=
  match decodeAccess c a.key a.data with
  | .instr (.oeWr _) => true
  | .instr (.clrWr v) => v.getLsbD n
  | .instr (.setWr v) => v.getLsbD n
  | _ => false

/-- No other master's access of the current tick touches bit `n` of OE or DOUT. -/
def State.othersSpare (s : State) (n : Nat) : Bool := s.others.all fun a => a.tick != s.tick || !a.touches s.cfg n

/-- `step` does not refuse the current tick for its inputs or its configuration. -/
def State.admissible (s : State) : Bool := s.cfg.wf && !s.undescribedWriteNow && !s.otherDriverNow

/-! ### The shape of a rule -/

/-- `s` after the engine's DATAIN_RD of this tick, which follows the other masters' accesses that fall before
it (R82). -/
def State.afterRead (s : State) : State :=
  { s.othersBefore with
    accesses := s.accesses + 1
    history := ⟨s.tick, readKey s.cfg.offDatain, s.datainWord, .engine⟩ :: s.othersBefore.history }

/-- Instruction `i` is POLL(target, next, fail) of R103: it reads the line once; the target level moves on with
CNT 0; the `POLL_BOUND`-th miss fails with CNT 0; any other miss counts. -/
def PollsFor (i : Instr) (target : Bool) (next fail : StateWord) : Prop :=
  ∀ s : State,
    (s.line = target → exec i s = .next { s.afterRead with stateReg := next, cnt := 0 }) ∧
    (s.line ≠ target → (s.cnt + 1) % 2 ^ s.cfg.cntW = s.cfg.pollBound →
      exec i s = .next { s.afterRead with stateReg := fail, cnt := 0 }) ∧
    (s.line ≠ target → (s.cnt + 1) % 2 ^ s.cfg.cntW ≠ s.cfg.pollBound →
      exec i s = .next { s.afterRead with cnt := (s.cnt + 1) % 2 ^ s.cfg.cntW })

/-- `t` is what the start of an acquisition (R98) makes of `s`: the engine registers as R98 writes them and the flags
that follow, the inputs and the configuration as they were, and the three accesses in order: the OE_RD returns what the
other masters' accesses before it left in OE, and the OE_WR writes that value without bit PIN. On every bit of the bank
that the tick's other masters spare, bit PIN is cleared and nothing else changes; under the exclusivity premise of R166
that holds of all of OE and of DOUT[PIN]; in a tick without other masters nothing else changes at all. -/
def StartsFrom (s t : State) : Prop :=
  t.stateReg = 0x1000#16 ∧ t.cnt = 0 ∧ t.sr = 0#40 ∧ t.data = 0#40 ∧
  t.busy = true ∧ t.done = false ∧ t.valid = false ∧
  t.cfg = s.cfg ∧ t.tick = s.tick ∧ t.sinceReset = s.sinceReset ∧ t.host = s.host ∧ t.trace = s.trace ∧
  t.others = s.others ∧
  t.accesses = s.accesses + 3 ∧
  t.busHistory = s.busHistory ++
    [⟨s.tick, 0#1 ++ s.cfg.offOe, s.othersBefore.oe, .engine⟩,
     ⟨s.tick, 1#1 ++ s.cfg.offOe, s.othersBefore.oe &&& ~~~s.cfg.mask, .engine⟩,
     ⟨s.tick, 1#1 ++ s.cfg.offClr, s.cfg.mask, .engine⟩] ∧
  (∀ n, s.othersSpare n = true →
    t.oe.getLsbD n = (s.oe.getLsbD n && !s.cfg.mask.getLsbD n) ∧
    t.dout.getLsbD n = (s.dout.getLsbD n && !s.cfg.mask.getLsbD n)) ∧
  (s.exclusive = true →
    s.othersBefore.oe = s.oe ∧ t.oe = s.oe &&& ~~~s.cfg.mask ∧
    (s.cfg.wf = true → t.oe.getLsbD s.cfg.pin = false ∧ t.dout.getLsbD s.cfg.pin = false)) ∧
  (s.quiet = true →
    t.oe = s.oe &&& ~~~s.cfg.mask ∧ t.dout = s.dout &&& ~~~s.cfg.mask ∧
    t.history =
      ⟨s.tick, 1#1 ++ s.cfg.offClr, s.cfg.mask, .engine⟩ ::
      ⟨s.tick, 1#1 ++ s.cfg.offOe, s.oe &&& ~~~s.cfg.mask, .engine⟩ ::
      ⟨s.tick, 0#1 ++ s.cfg.offOe, s.oe, .engine⟩ :: s.history)

/-- The engine's accesses that a step from `s` to `t` adds, newest first. -/
def newEngineEvents (s t : State) : List BusEvent :=
  (t.history.take (t.history.length - s.history.length)).filter fun e => e.master == .engine

/-- What each polling state waits for, where it goes and how it fails (R105 to R107, R114, R116, R118), in the numbers
of R68. -/
def pollOf : Instr → Option (Bool × StateWord × StateWord)
  | .awaitAckLow => some (false, 0x4000#16, 0x9200#16)
  | .awaitAckHigh => some (true, 0x5000#16, 0x9400#16)
  | .awaitAckEnd => some (false, 0x6000#16, 0x9600#16)
  | .readBitRise b i =>
    some (true, BitVec.ofNat 16 (0x6040 + 8 * b.toNat + i.toNat), BitVec.ofNat 16 (0x9800 + 8 * b.toNat + i.toNat))
  | .readBitFall b i =>
    some (false,
      (if 8 * b.toNat + i.toNat < 39 then BitVec.ofNat 16 (0x6000 + 8 * b.toNat + i.toNat + 1) else 0x7000#16),
      BitVec.ofNat 16 (0x9A00 + 8 * b.toNat + i.toNat))
  | _ => none

/-! ### Invariants -/

/-- The exclusive bound of CNT in a state: the hold or poll it counts, and 1 (so CNT is 0) in the states that
count nothing (R23). -/
def cntBound (c : Cfg) : Instr → Nat
  | .driveStartLow => c.tStartLow
  | .driveStartHigh => c.tStartHigh
  | .awaitAckLow => c.pollBound
  | .awaitAckHigh => c.pollBound
  | .awaitAckEnd => c.pollBound
  | .readBitRise _ _ => c.pollBound
  | .readBitSettle _ _ => c.tSettle
  | .readBitFall _ _ => c.pollBound
  | _ => 1

/-- How many samples SR holds in a state (R121). -/
def sampleCount : Instr → Nat
  | .readBitRise b i => 8 * b.toNat + i.toNat
  | .readBitSettle b i => 8 * b.toNat + i.toNat
  | .readBitFall b i => 8 * b.toNat + i.toNat + 1
  | .failedBitTimeout b i => 8 * b.toNat + i.toNat
  | .failedBitStuckHigh b i => 8 * b.toNat + i.toNat + 1
  | .verifyChecksum => 40
  | .success => 40
  | .failedChecksumMismatch => 40
  | _ => 0

/-- What the engine registers hold in the state of `i`: CNT is below its bound (R23), SR holds only the samples
taken (R121), and DATA is the checked frame in SUCCESS and 0 elsewhere (R25, R129). -/
structure RegistersFit (s : State) (i : Instr) : Prop where
  cntFits : s.cnt < cntBound s.cfg i
  srFits : s.sr.toNat < 2 ^ sampleCount i
  dataInSuccess : i = .success → s.data = s.sr ∧ checksumOk s.sr = true
  dataElsewhere : i ≠ .success → s.data = 0#40
  mismatchIsReal : i = .failedChecksumMismatch → checksumOk s.sr = false

/-- The invariant of the engine between two ticks: a legal configuration, a legal state word (R21, R69), fitting
registers, and no access of the tick issued yet. -/
structure Inv (s : State) : Prop where
  configOk : s.cfg.wf = true
  stateOk : ∃ i, decodeStateWord s.stateReg = .instr i ∧ RegistersFit s i
  betweenTicks : s.accesses = 0

/-- The pin in the state of `i` (R36, R100, R101, R110): driven low, driven high, or released. -/
def pinFits (s : State) : Instr → Prop
  | .idle => True
  | .driveStartLow => s.drives = some false
  | .driveStartHigh => s.drives = some true
  | _ => s.drives = none

/-- The pin is as the state word says it is. -/
def PinInv (s : State) : Prop := ∃ i, decodeStateWord s.stateReg = .instr i ∧ pinFits s i

/-- An event of the engine is one of the five accesses of R71, with MASK as the data of CLR_WR and SET_WR
(R73). -/
def BusEvent.engineOk (c : Cfg) (e : BusEvent) : Prop :=
  decodeAccess c e.key e.data = .instr .oeRd ∨ decodeAccess c e.key e.data = .instr .datainRd ∨
  decodeAccess c e.key e.data = .instr (.oeWr e.data) ∨ decodeAccess c e.key e.data = .instr (.clrWr c.mask) ∨
  decodeAccess c e.key e.data = .instr (.setWr c.mask)

/-- The history holds only past events, newest first, and the engine's are those it may issue (R41, R58, R71). -/
def HistoryInv (s : State) : Prop :=
  (∀ e ∈ s.history, e.tick < s.tick) ∧
  s.history.Pairwise (fun e f => f.tick ≤ e.tick) ∧
  (∀ e ∈ s.history, e.master = .engine → e.engineOk s.cfg)

/-! ### Time and samples -/

/-- The most ticks a bit can take: two polls and the settle delay (R120). -/
def bitTicks (c : Cfg) : Nat := 2 * c.pollBound + c.tSettle

/-- The most ticks from an accepted ACQUIRE to a visible terminal state (R174). -/
def acquisitionTicks (c : Cfg) : Nat :=
  c.tStartLow + c.tStartHigh + 2 + 3 * c.pollBound + 40 * bitTicks c

/-- The fewest ticks from an accepted ACQUIRE to a visible SUCCESS (R175). -/
def fastestSuccessTicks (c : Cfg) : Nat := c.tStartLow + c.tStartHigh + 2 + 3 + 40 * (2 + c.tSettle)

/-- `n` steps, as `core.run` takes them (`core_run_eq` in Laws/Ops.lean): it stops at the first fault or refusal. -/
def runTicks : Nat → State → Host.Outcome State Fault Refusal
  | 0, s => .next s
  | n + 1, s =>
    match step s with
    | .next t => runTicks n t
    | .fault r => .fault r
    | .refused r => .refused r

/-- The level a step from `s` shifts into SR: in the last tick of a SETTLE phase (R115). -/
def State.sampled (s : State) : Option Bool :=
  match decodeStateWord s.stateReg with
  | .instr (.readBitSettle _ _) => if s.cntSucc = s.cfg.tSettle then some s.line else none
  | _ => none

/-- The levels that the first `n` steps from `s` sample, in the order they are taken. -/
def samplesOf : Nat → State → List Bool
  | 0, _ => []
  | n + 1, s =>
    match step s with
    | .next t => (s.sampled.toList) ++ samplesOf n t
    | _ => []

end Sys2Proof.Machine
end

