-- ==== Sys2Proof/Certificates/Slice0/Obligations.lean ====
section
/-! DEFINITION. The statements for the provers, from the numbered rules of spec/. State words and access keys are
written as the numbers of R68 and R70, not through the encoder. -/

open Sys2Proof Sys2Proof.Machine

/-! ### Encoding -/

/-- R68's examples and one word of each other family, decoded. -/
def Obligations.SpecWordsDecode : Prop :=
  decodeStateWord 0x6000#16 = .instr (.readBitRise 0#3 0#3) ∧
  decodeStateWord 0x60A7#16 = .instr (.readBitFall 4#3 7#3) ∧
  decodeStateWord 0x9A15#16 = .instr (.failedBitStuckHigh 2#3 5#3) ∧
  decodeStateWord 0x4000#16 = .instr .awaitAckHigh ∧
  decodeStateWord 0x9C00#16 = .instr .failedChecksumMismatch ∧
  decodeAccess Cfg.default 0x1190#13 0x40000000#32 = .instr (.clrWr 0x40000000#32) ∧
  decodeAccess Cfg.default 0x0138#13 0#32 = .instr .datainRd ∧
  decodeHost 1#1 = .instr .acquire

/-- Decoding an encoded well-formed instruction gives it back, at every operand value and under every legal
configuration, for all 23 rows of the opcode table. -/
def Obligations.DecodeOfEncodeIsIdentity : Prop :=
  ∀ (c : Cfg) (i : Instr), c.wf = true → i.wf = true → decode c (encode c i) = .instr i

/-- A decoded state word is the encoding of a well-formed instruction: no state word outside R68's table
decodes, and no two words decode to one instruction. -/
def Obligations.DecodedStateWordReencodes : Prop :=
  ∀ (c : Cfg) (w : StateWord) (i : Instr),
    decodeStateWord w = .instr i → i.wf = true ∧ encode c i = .sw w

/-- The reserved and illegal state words of R69, bullet by bullet, are rejected; a machine whose STATE holds a rejected
word is refused (unless it is reset in that tick, R157); and no step writes one. -/
def Obligations.IllegalStateWordsAreRefusedAndNeverWritten : Prop :=
  (∀ w : StateWord, 0xA#4 ≤ w.extractLsb' 12 4 → ∃ r, decodeStateWord w = .reject r) ∧
  (∀ w : StateWord, w.extractLsb' 12 4 = 6#4 → (w.extractLsb' 6 2 = 3#2 ∨ 5#3 ≤ w.extractLsb' 3 3) →
    ∃ r, decodeStateWord w = .reject r) ∧
  (∀ w : StateWord, w.extractLsb' 12 4 = 9#4 →
    (w.extractLsb' 9 3 = 0#3 ∨ w.extractLsb' 9 3 = 7#3 ∨ 5#3 ≤ w.extractLsb' 3 3) → ∃ r, decodeStateWord w = .reject r) ∧
  (∀ w : StateWord,
    (w.extractLsb' 8 1 ≠ 0#1 ∨
     (w.extractLsb' 12 4 ≠ 9#4 ∧ w.extractLsb' 9 3 ≠ 0#3) ∨
     (w.extractLsb' 12 4 ≠ 6#4 ∧ w.extractLsb' 6 2 ≠ 0#2) ∨
     (w.extractLsb' 12 4 ≠ 6#4 ∧
      ¬ (w.extractLsb' 12 4 = 9#4 ∧ (w.extractLsb' 9 3 = 4#3 ∨ w.extractLsb' 9 3 = 5#3)) ∧
      w.extractLsb' 0 6 ≠ 0#6)) → ∃ r, decodeStateWord w = .reject r) ∧
  (∀ (s : State) (r : Reject), s.admissible = true → s.rst = false → decodeStateWord s.stateReg = .reject r →
    step s = .refused .illegalStateWord) ∧
  (∀ s t : State, step s = .next t → ∃ i, decodeStateWord t.stateReg = .instr i)

/-- Under a legal configuration a key names an access exactly when it is one of R71's five; the write data is the
operand. Every other key is rejected (R72). -/
def Obligations.AccessKeysAreTheFiveOfTheTable : Prop :=
  ∀ (c : Cfg) (key : AccessKey) (v : GpioWord) (i : Instr), c.wf = true →
    (decodeAccess c key v = .instr i ↔
      (key = 0#1 ++ c.offOe ∧ i = .oeRd) ∨ (key = 0#1 ++ c.offDatain ∧ i = .datainRd) ∨
      (key = 1#1 ++ c.offOe ∧ i = .oeWr v) ∨ (key = 1#1 ++ c.offClr ∧ i = .clrWr v) ∨
      (key = 1#1 ++ c.offSet ∧ i = .setWr v))

/-! ### The step -/

/-- In a tick that the spec does not refuse and without `rst`, the step runs the instruction the STATE word
decodes to, or ACQUIRE where `acq_req` is 1 in a state that accepts it; around it, only the other masters'
remaining accesses and the tick's two numbers. -/
def Obligations.StepRunsTheSelectedInstruction : Prop :=
  ∀ (s : State) (i : Instr), s.admissible = true → s.rst = false → decodeStateWord s.stateReg = .instr i →
    step s =
      (match exec (if s.acqReq && i.rests then .acquire else i) s with
       | .next t => .next { t.othersAfter with
           tick := t.tick + 1
           sinceReset := t.sinceReset + 1
           accesses := 0 }
       | .fault r => .fault r
       | .refused r => .refused r)

/-- A word placed with `withFetchWord` is the one the next step runs (the model's own interface, log 13): a state word is
selected, ACQUIRE is selected where the state was legal, and an access key acts on the bank as its meaning does. -/
def Obligations.PresentedWordRunsNext : Prop :=
  ∀ (s : State) (nbits w : Nat) (i : Instr), s.cfg.wf = true → decodeTableWord nbits w = some i →
    (s.withFetchWord nbits w).rst = false ∧
    (∀ x, encode s.cfg i = .sw x → (s.withFetchWord nbits w).selected = .instr i) ∧
    (i = .acquire → (∃ j, decodeStateWord s.stateReg = .instr j) →
      (s.withFetchWord nbits w).selected = .instr .acquire) ∧
    (∀ key v u, encode s.cfg i = .bk key v → exec i s.clearInputs = .next u →
      ∃ t, step (s.withFetchWord nbits w) = .next t ∧ t.oe = u.oe ∧ t.dout = u.dout ∧
        t.stateReg = 0x0000#16 ∧ t.cnt = s.cnt ∧ t.sr = s.sr ∧ t.data = s.data)

/-- A legal state is never stuck (R96): in a tick that the spec does not refuse, a step from a legal state word
answers a next state. -/
def Obligations.LegalStatesAlwaysStep : Prop :=
  ∀ s : State, s.admissible = true → (∃ i, decodeStateWord s.stateReg = .instr i) → ∃ t, step s = .next t

/-- A configuration that breaks a constraint of Table P1 is refused, whatever the state (R10); among them a
start-low hold of 17,999 (R11, U11). -/
def Obligations.IllFormedConfigurationIsRefused : Prop :=
  (∀ s : State, s.cfg.wf = false → step s = .refused .illFormedConfig) ∧
  (∀ c : Cfg,
    (31 < c.pin ∨ c.mask ≠ 1#32 <<< c.pin ∨ c.offOe.toNat % 4 ≠ 0 ∨ c.offDatain.toNat % 4 ≠ 0 ∨
     c.offClr.toNat % 4 ≠ 0 ∨ c.offSet.toNat % 4 ≠ 0 ∨ c.gpioBase % 4 ≠ 0 ∨ c.regW ≠ 32 ∨ c.tickUs ≠ 1 ∨
     c.clkPerTick = 0 ∨ c.tStartLow < 18000 ∨ 2 ^ 16 ≤ c.tStartLow ∨ c.tStartHigh < 20 ∨ 40 < c.tStartHigh ∨
     c.pollBound = 0 ∨ 2 ^ 16 ≤ c.pollBound ∨ c.tSettle = 0 ∨ 2 ^ 16 ≤ c.tSettle ∨ c.frameBytes ≠ 5 ∨
     c.frameBits ≠ 8 * c.frameBytes ∨ 2 ^ c.cntW ≤ c.tStartLow ∨ 2 ^ c.cntW ≤ c.tStartHigh ∨
     2 ^ c.cntW ≤ c.pollBound ∨ 2 ^ c.cntW ≤ c.tSettle) → c.wf = false)

/-! ### Reset -/

/-- The reset values (R30): the engine registers and the flags, under every configuration and whatever the output latch
holds; the bank's OE is `OE_INIT` (R31) and its DOUT any value (U4). `State.reset` is one such state. -/
def Obligations.ResetStateHoldsTheResetValues : Prop :=
  (∀ (c : Cfg) (d : GpioWord),
    (State.launch c d).stateReg = 0x0000#16 ∧ (State.launch c d).cnt = 0 ∧ (State.launch c d).sr = 0#40 ∧
    (State.launch c d).data = 0#40 ∧ (State.launch c d).busy = false ∧ (State.launch c d).done = false ∧
    (State.launch c d).valid = false ∧ (State.launch c d).oe = c.oeInit ∧ (State.launch c d).dout = d) ∧
  ∃ d, State.reset = State.launch Cfg.default d

/-- `rst` = 1 in a tick (R157), from any state word and whatever `acq_req` (R160): the four registers take their
reset values, the three flags are 0, the engine issues no access, and the bank is as the other masters of the
tick leave it: without them it is untouched (R159). The next tick is number 0 from this reset (R15), and the run's own
tick number goes on (R157's "tick t+1"); that there are these two numbers, and that the first starts at 0, is the
model's inference (log 6). That a reset from an illegal state word is not refused is its choice (log 14). -/
def Obligations.ResetTickResetsTheEngine : Prop :=
  ∀ s : State, s.admissible = true → s.rst = true →
    ∃ t, step s = .next t ∧ t.stateReg = 0x0000#16 ∧ t.cnt = 0 ∧ t.sr = 0#40 ∧ t.data = 0#40 ∧
      t.busy = false ∧ t.done = false ∧ t.valid = false ∧
      t.busHistory = s.busHistory ∧ t.oe = s.othersAfter.oe ∧ t.dout = s.othersAfter.dout ∧
      (s.quiet = true → t.oe = s.oe ∧ t.dout = s.dout ∧ t.history = s.history) ∧
      t.cfg = s.cfg ∧ t.tick = s.tick + 1 ∧ t.sinceReset = 0 ∧ t.host = s.host ∧ t.trace = s.trace ∧
      t.others = s.others

/-! ### The host command -/

/-- ACQUIRE (R97, R98): with `rst` = 0 in IDLE, SUCCESS or FAILED it starts an acquisition; under `rst` (R160) or in any
other state (R102) it has no effect. -/
def Obligations.AcquireStartsOnlyFromRestingStates : Prop :=
  ∀ s : State,
    (s.rst = false →
      (s.stateReg.extractLsb' 12 4 = 0x0#4 ∨ s.stateReg.extractLsb' 12 4 = 0x8#4 ∨
       s.stateReg.extractLsb' 12 4 = 0x9#4) →
      ∃ t, exec .acquire s = .next t ∧ StartsFrom s t) ∧
    ((s.rst = true ∨
      (s.stateReg.extractLsb' 12 4 ≠ 0x0#4 ∧ s.stateReg.extractLsb' 12 4 ≠ 0x8#4 ∧
       s.stateReg.extractLsb' 12 4 ≠ 0x9#4)) →
      exec .acquire s = .next s)

/-- A request to a busy engine changes nothing (R102): two ticks that differ only in the host's ACQUIREs step to
states that differ only in them. -/
def Obligations.AcquireWhileBusyIsIgnored : Prop :=
  ∀ (s : State) (h : List HostLine), s.busy = true → s.rst = false → ({ s with host := h } : State).rst = false →
    step { s with host := h } =
      (match step s with
       | .next t => .next { t with host := h }
       | .fault r => .fault r
       | .refused r => .refused r)

/-- IDLE, SUCCESS and the six FAILED states (R98, R99, R127, R128): an ACQUIRE starts an acquisition, and without one
nothing changes and no access is made. -/
def Obligations.RestingStatesHoldUntilAcquire : Prop :=
  ∀ (s : State) (i : Instr), i.rests = true → i.wf = true →
    (s.acqReq = true → ∃ t, exec i s = .next t ∧ StartsFrom s t) ∧
    (s.acqReq = false → exec i s = .next s)

/-! ### The start sequence and the handshake -/

/-- DRIVE_START_LOW (R100): in the last tick of the hold the line is driven high and the state moves on, before
that CNT counts and nothing else happens. -/
def Obligations.DriveStartLowHoldsThenDrivesHigh : Prop :=
  ∀ s : State,
    ((s.cnt + 1) % 2 ^ s.cfg.cntW = s.cfg.tStartLow →
      exec .driveStartLow s = .next { s.othersBefore with
        stateReg := 0x2000#16
        cnt := 0
        dout := s.othersBefore.dout ||| s.cfg.mask
        accesses := s.accesses + 1
        history := ⟨s.tick, 1#1 ++ s.cfg.offSet, s.cfg.mask, .engine⟩ :: s.othersBefore.history }) ∧
    ((s.cnt + 1) % 2 ^ s.cfg.cntW ≠ s.cfg.tStartLow →
      exec .driveStartLow s = .next { s with cnt := (s.cnt + 1) % 2 ^ s.cfg.cntW })

/-- DRIVE_START_HIGH (R101): in the last tick of the hold the pin is released by a read-modify-write of OE, which writes
the value its OE_RD returns (what the other masters' earlier accesses left) with bit PIN set, and the state moves on;
before that CNT counts and nothing else happens. -/
def Obligations.DriveStartHighHoldsThenReleases : Prop :=
  ∀ s : State,
    ((s.cnt + 1) % 2 ^ s.cfg.cntW = s.cfg.tStartHigh →
      ∃ t, exec .driveStartHigh s = .next t ∧ t.stateReg = 0x3000#16 ∧ t.cnt = 0 ∧ t.sr = s.sr ∧ t.data = s.data ∧
        t.cfg = s.cfg ∧ t.tick = s.tick ∧ t.sinceReset = s.sinceReset ∧ t.host = s.host ∧ t.trace = s.trace ∧
        t.others = s.others ∧ t.accesses = s.accesses + 2 ∧
        t.busHistory = s.busHistory ++
          [⟨s.tick, 0#1 ++ s.cfg.offOe, s.othersBefore.oe, .engine⟩,
           ⟨s.tick, 1#1 ++ s.cfg.offOe, s.othersBefore.oe ||| s.cfg.mask, .engine⟩] ∧
        (∀ n, s.othersSpare n = true →
          t.oe.getLsbD n = (s.oe.getLsbD n || s.cfg.mask.getLsbD n) ∧ t.dout.getLsbD n = s.dout.getLsbD n) ∧
        (s.exclusive = true →
          s.othersBefore.oe = s.oe ∧ t.oe = s.oe ||| s.cfg.mask ∧ t.dout.getLsbD s.cfg.pin = s.dout.getLsbD s.cfg.pin ∧
          (s.cfg.wf = true → t.oe.getLsbD s.cfg.pin = true)) ∧
        (s.quiet = true → t = { s with
          stateReg := 0x3000#16
          cnt := 0
          oe := s.oe ||| s.cfg.mask
          accesses := s.accesses + 2
          history := ⟨s.tick, 1#1 ++ s.cfg.offOe, s.oe ||| s.cfg.mask, .engine⟩ ::
            ⟨s.tick, 0#1 ++ s.cfg.offOe, s.oe, .engine⟩ :: s.history })) ∧
    ((s.cnt + 1) % 2 ^ s.cfg.cntW ≠ s.cfg.tStartHigh →
      exec .driveStartHigh s = .next { s with cnt := (s.cnt + 1) % 2 ^ s.cfg.cntW })

/-- The three handshake states poll for the level in their names, with the failures of R105 to R107. -/
def Obligations.HandshakeStatesPoll : Prop :=
  PollsFor .awaitAckLow false 0x4000#16 0x9200#16 ∧
  PollsFor .awaitAckHigh true 0x5000#16 0x9400#16 ∧
  PollsFor .awaitAckEnd false 0x6000#16 0x9600#16

/-! ### The sampler -/

/-- READ_BIT.RISE b,i polls for the high level and fails as BIT_TIMEOUT b,i (R114). -/
def Obligations.ReadBitRisePolls : Prop :=
  ∀ b i : Nat, b ≤ 4 → i ≤ 7 →
    PollsFor (.readBitRise (BitVec.ofNat 3 b) (BitVec.ofNat 3 i)) true
      (BitVec.ofNat 16 (0x6040 + 8 * b + i)) (BitVec.ofNat 16 (0x9800 + 8 * b + i))

/-- READ_BIT.SETTLE b,i (R115): in the last tick of the delay the line is read once and its level enters SR; before
that the line is not read and CNT counts. -/
def Obligations.ReadBitSettleSamples : Prop :=
  ∀ (b i : Nat) (s : State), b ≤ 4 → i ≤ 7 →
    ((s.cnt + 1) % 2 ^ s.cfg.cntW = s.cfg.tSettle →
      exec (.readBitSettle (BitVec.ofNat 3 b) (BitVec.ofNat 3 i)) s = .next { s.afterRead with
        stateReg := BitVec.ofNat 16 (0x6080 + 8 * b + i)
        cnt := 0
        sr := (s.sr <<< 1) ||| (if s.line then 1#40 else 0#40) }) ∧
    ((s.cnt + 1) % 2 ^ s.cfg.cntW ≠ s.cfg.tSettle →
      exec (.readBitSettle (BitVec.ofNat 3 b) (BitVec.ofNat 3 i)) s =
        .next { s with cnt := (s.cnt + 1) % 2 ^ s.cfg.cntW })

/-- READ_BIT.FALL b,i polls for the low level, moves to the next bit of the byte, the next byte or the checksum, and
fails as BIT_STUCK_HIGH b,i (R116, R118). -/
def Obligations.ReadBitFallPollsAndMovesOn : Prop :=
  ∀ b i : Nat, b ≤ 4 → i ≤ 7 →
    PollsFor (.readBitFall (BitVec.ofNat 3 b) (BitVec.ofNat 3 i)) false
      (if i < 7 then BitVec.ofNat 16 (0x6000 + 8 * b + (i + 1))
       else if b < 4 then BitVec.ofNat 16 (0x6000 + 8 * (b + 1)) else 0x7000#16)
      (BitVec.ofNat 16 (0x9A00 + 8 * b + i))

/-- A state instruction with a BYTE of 5 to 7 is refused by its own meaning. R69 refuses a STATE that holds such a word;
that the instruction given such an index directly answers the same refusal is the model's choice (log 14). -/
def Obligations.ReservedByteIndexHasNoMeaning : Prop :=
  ∀ (b i : Index) (s : State), 5 ≤ b.toNat →
    exec (.readBitRise b i) s = .refused .illegalStateWord ∧ exec (.readBitSettle b i) s = .refused .illegalStateWord ∧
    exec (.readBitFall b i) s = .refused .illegalStateWord ∧ exec (.failedBitTimeout b i) s = .refused .illegalStateWord ∧
    exec (.failedBitStuckHigh b i) s = .refused .illegalStateWord

/-- Byte packing (R117): after 40 samples shifted into a cleared register, SR[39 - j] is sample j, and bit 7 - i of
byte k is sample 8k + i. -/
def Obligations.FortySamplesPackMsbFirst : Prop :=
  ∀ l : List Bool, l.length = 40 →
    (∀ j, j < 40 → (l.foldl shiftIn 0#40).getLsbD (39 - j) = l.getD j false) ∧
    (∀ k i, k < 5 → i < 8 → (frameByte (l.foldl shiftIn 0#40) k).getLsbD (7 - i) = l.getD (8 * k + i) false)

/-! ### The checksum -/

/-- VERIFY_CHECKSUM (R125, R126): by the bytes of SR alone, the frame becomes DATA and the state SUCCESS, or the state
is CHECKSUM_MISMATCH and DATA keeps its value; CNT is 0, no access, nothing else changes. -/
def Obligations.VerifyChecksumDecidesByTheFiveBytes : Prop :=
  ∀ s : State,
    ((s.sr.toNat / 2 ^ 32 + s.sr.toNat / 2 ^ 24 % 256 + s.sr.toNat / 2 ^ 16 % 256 + s.sr.toNat / 2 ^ 8 % 256) % 256
        = s.sr.toNat % 256 →
      exec .verifyChecksum s = .next { s with stateReg := 0x8000#16, cnt := 0, data := s.sr }) ∧
    ((s.sr.toNat / 2 ^ 32 + s.sr.toNat / 2 ^ 24 % 256 + s.sr.toNat / 2 ^ 16 % 256 + s.sr.toNat / 2 ^ 8 % 256) % 256
        ≠ s.sr.toNat % 256 →
      exec .verifyChecksum s = .next { s with stateReg := 0x9C00#16, cnt := 0 })

/-- The checksum detects every single-bit error (R130). -/
def Obligations.ChecksumDetectsEverySingleBitError : Prop :=
  ∀ (f : Frame) (n : Nat), n < 40 → checksumOk f = true → checksumOk (f ^^^ (1#40 <<< n)) = false

/-! ### The GPIO bank -/

/-- The five bus accesses as the engine issues them (R81 to R85): the value read or written, the bank's register, the
event, and nothing else. They never fail and write no engine register (R80). -/
def Obligations.BusAccessesActOnTheBank : Prop :=
  ∀ (s : State) (v : GpioWord),
    exec .oeRd s = .next { s.othersBefore with
      accesses := s.accesses + 1
      history := ⟨s.tick, 0#1 ++ s.cfg.offOe, s.othersBefore.oe, .engine⟩ :: s.othersBefore.history } ∧
    exec .datainRd s = .next { s.othersBefore with
      accesses := s.accesses + 1
      history := ⟨s.tick, 0#1 ++ s.cfg.offDatain, s.datainWord, .engine⟩ :: s.othersBefore.history } ∧
    exec (.oeWr v) s = .next { s.othersBefore with
      oe := v
      accesses := s.accesses + 1
      history := ⟨s.tick, 1#1 ++ s.cfg.offOe, v, .engine⟩ :: s.othersBefore.history } ∧
    exec (.clrWr v) s = .next { s.othersBefore with
      dout := s.othersBefore.dout &&& ~~~v
      accesses := s.accesses + 1
      history := ⟨s.tick, 1#1 ++ s.cfg.offClr, v, .engine⟩ :: s.othersBefore.history } ∧
    exec (.setWr v) s = .next { s.othersBefore with
      dout := s.othersBefore.dout ||| v
      accesses := s.accesses + 1
      history := ⟨s.tick, 1#1 ++ s.cfg.offSet, v, .engine⟩ :: s.othersBefore.history } ∧
    s.datainWord.getLsbD s.cfg.pin = s.lineAt s.tick

/-- A set or clear write acts bit by bit: it changes DOUT exactly where its data has a 1 (R33, R34), and repeating it
leaves DOUT as the first left it (R48). -/
def Obligations.SetAndClearAreBitIsolatedAndIdempotent : Prop :=
  ∀ (s t u : State) (v : GpioWord), s.quiet = true →
    (exec (.clrWr v) s = .next t → exec (.clrWr v) t = .next u →
      u.dout = t.dout ∧ ∀ n, n < 32 → t.dout.getLsbD n = (if v.getLsbD n then false else s.dout.getLsbD n)) ∧
    (exec (.setWr v) s = .next t → exec (.setWr v) t = .next u →
      u.dout = t.dout ∧ ∀ n, n < 32 → t.dout.getLsbD n = (if v.getLsbD n then true else s.dout.getLsbD n))

/-- The primitives are the accesses they expand to (R77), run one after the other by their meanings with the value the
OE_RD returns; READLEVEL's level is bit PIN of the word read (R88); and in a tick without other masters OE and DOUT
become what R86 to R90 say, with the other bits as they were. -/
def Obligations.PrimitivesRunTheirExpansions : Prop :=
  ∀ s : State,
    (∀ p : Primitive,
      (p.expansion s.cfg s.othersBefore.oe).foldlM (m := Option)
        (fun t i => match exec i t with
          | .next u => some u
          | _ => none) s = some (p.run s)) ∧
    s.readLevel.1 = s.datainWord.getLsbD s.cfg.pin ∧
    (s.quiet = true → s.cfg.wf = true → ∀ n, n < 32 →
      s.setDirOut.oe.getLsbD n = (if n = s.cfg.pin then false else s.oe.getLsbD n) ∧ s.setDirOut.dout = s.dout ∧
      s.setDirIn.oe.getLsbD n = (if n = s.cfg.pin then true else s.oe.getLsbD n) ∧ s.setDirIn.dout = s.dout ∧
      s.readLevel.2.oe = s.oe ∧ s.readLevel.2.dout = s.dout ∧
      s.driveHigh.dout.getLsbD n = (if n = s.cfg.pin then true else s.dout.getLsbD n) ∧ s.driveHigh.oe = s.oe ∧
      s.driveLow.dout.getLsbD n = (if n = s.cfg.pin then false else s.dout.getLsbD n) ∧ s.driveLow.oe = s.oe)

/-- The engine changes no bit of OE and DOUT but its own (R92): in a tick without other masters every bit but PIN
keeps its value. -/
def Obligations.StepKeepsTheOtherPins : Prop :=
  ∀ (s t : State), s.quiet = true → step s = .next t →
    ∀ n, n ≠ s.cfg.pin → t.oe.getLsbD n = s.oe.getLsbD n ∧ t.dout.getLsbD n = s.dout.getLsbD n

/-- What a tick adds to the engine's bus history (R56, R58, R122): at most three accesses, all of this tick, and at
most one of them a DATAIN_RD. -/
def Obligations.AtMostThreeAccessesAndOneRead : Prop :=
  ∀ (s t : State), step s = .next t →
    (newEngineEvents s t).length ≤ 3 ∧ (∀ e ∈ newEngineEvents s t, e.tick = s.tick) ∧
    ((newEngineEvents s t).filter fun e => e.key == 0#1 ++ s.cfg.offDatain).length ≤ 1 ∧
    t.busHistory = s.busHistory ++ (newEngineEvents s t).reverse

/-- After the release the engine issues no write until the next ACQUIRE (R110): from the handshake, data and checksum
states, and from a resting state without ACQUIRE, a tick's accesses are DATAIN_RDs. -/
def Obligations.NoWriteAfterTheRelease : Prop :=
  ∀ (s t : State) (i : Instr), step s = .next t → decodeStateWord s.stateReg = .instr i →
    i ≠ .driveStartLow → i ≠ .driveStartHigh → (i.rests = true → s.acqReq = false) →
    ∀ e ∈ newEngineEvents s t, e.key = 0#1 ++ s.cfg.offDatain

/-- The race of R60, in the start tick (SETDIR.OUT, R98) and in the release tick (SETDIR.IN, R101): another master's OE_WR
before the engine's OE_RD is what the engine reads and writes back with its own bit changed; one between the OE_RD and
the OE_WR is lost; one after the engine's OE_WR is what OE holds: whichever write landed last, with no merge. -/
def Obligations.LastOeWriteWins : Prop :=
  ∀ (s t : State) (x : GpioWord) (slot : Nat), s.accesses = 0 → s.rst = false →
    s.others = [⟨s.tick, slot, 1#1 ++ s.cfg.offOe, x⟩] → step s = .next t →
    (s.acqReq = true → restsIn s.stateReg = true →
      t.oe = (if slot = 0 then x &&& ~~~s.cfg.mask else if slot = 1 then s.oe &&& ~~~s.cfg.mask else x)) ∧
    (s.stateReg = 0x2000#16 → (s.cnt + 1) % 2 ^ s.cfg.cntW = s.cfg.tStartHigh →
      t.oe = (if slot = 0 then x ||| s.cfg.mask else if slot = 1 then s.oe ||| s.cfg.mask else x))

/-- A write of another master to a register whose write the spec does not describe is refused (R72, U3), and so is
another driver of the pin during an acquisition (U7). How U7 is read, and that both hold in a tick with `rst` = 1
too, are the model's choices (log 10). -/
def Obligations.UndescribedAccessesAreRefused : Prop :=
  (∀ (s : State) (a : OtherAccess), s.cfg.wf = true → a ∈ s.others → a.tick = s.tick →
    a.key.getLsbD 12 = true → a.key.extractLsb' 0 12 ≠ s.cfg.offOe → a.key.extractLsb' 0 12 ≠ s.cfg.offClr →
    a.key.extractLsb' 0 12 ≠ s.cfg.offSet → step s = .refused .undescribedWrite) ∧
  (∀ (s : State) (a : OtherAccess), s.cfg.wf = true → s.undescribedWriteNow = false → s.busy = true → a ∈ s.others →
    a.tick = s.tick → (a.key = 1#1 ++ s.cfg.offClr ∨ a.key = 1#1 ++ s.cfg.offSet) → a.data.getLsbD s.cfg.pin = true →
    step s = .refused .otherDriverOnPin)

/-! ### Whole-machine rules -/

/-- The status signals are functions of KIND (R27): BUSY outside IDLE, SUCCESS and FAILED, DONE in SUCCESS and
FAILED, VALID in SUCCESS, whose DATA alone is a reading; for every legal state word. -/
def Obligations.FlagsFollowTheStateWord : Prop :=
  ∀ (s : State) (i : Instr), decodeStateWord s.stateReg = .instr i →
    (s.busy = true ↔ i.rests = false) ∧ (s.done = true ↔ i.rests = true ∧ i ≠ .idle) ∧
    (s.valid = true ↔ i = .success) ∧ (s.reading = if i = .success then some s.data else none) ∧
    State.reset.busy = false ∧ State.reset.done = false ∧ State.reset.valid = false

/-- Only the engine state, `rst`, `acq_req` and `Line(t)` decide what the engine registers become (R96): two states
that agree on these (and on the configuration) step to states that agree on STATE, CNT, SR and DATA, whatever the bank,
the history and the other masters are. -/
def Obligations.EngineDependsOnlyOnItsInputs : Prop :=
  ∀ (s s' t t' : State), s.cfg = s'.cfg → s.stateReg = s'.stateReg → s.cnt = s'.cnt → s.sr = s'.sr →
    s.data = s'.data → s.rst = s'.rst → s.acqReq = s'.acqReq → s.line = s'.line →
    step s = .next t → step s' = .next t' →
    t.stateReg = t'.stateReg ∧ t.cnt = t'.cnt ∧ t.sr = t'.sr ∧ t.data = t'.data

/-- Configuration, schedules and time (R15, R57): a step keeps the configuration and the inputs of later ticks and
counts one tick: the number from the last reset grows by one, or is 0 after a tick with `rst`, and the number in the
run grows by one in every tick; the reset state is in tick 0 from the reset. That there are these two numbers, and that
the first starts at 0, is the model's inference (log 6), and the access count, 0 between ticks, is its own (log 8). -/
def Obligations.StepCountsOneTickAndKeepsTheConfiguration : Prop :=
  State.reset.sinceReset = 0 ∧ ∀ (s t : State), step s = .next t →
    t.cfg = s.cfg ∧ t.tick = s.tick + 1 ∧ t.sinceReset = (if s.rst then 0 else s.sinceReset + 1) ∧
    t.accesses = 0 ∧ t.host = s.host ∧ t.trace = s.trace ∧ t.others = s.others

/-- SUCCESS and FAILED are left only by ACQUIRE or `rst` (R134), IDLE is entered only by `rst` (R99), and DRIVE_START_LOW
only by an ACQUIRE in a resting state (R98, R102, R112). -/
def Obligations.OnlyAcquireOrResetLeavesATerminalState : Prop :=
  ∀ (s t : State), step s = .next t →
    (s.done = true → t.stateReg ≠ s.stateReg → s.rst = true ∨ (s.acqReq = true ∧ t.stateReg = 0x1000#16)) ∧
    (t.stateReg = 0x0000#16 → s.stateReg ≠ 0x0000#16 → s.rst = true) ∧
    (t.stateReg = 0x1000#16 → s.stateReg ≠ 0x1000#16 → s.rst = false ∧ s.acqReq = true ∧ restsIn s.stateReg = true)

/-- Failures do not nest and are precise (R145, R146, R148): a step that enters a FAILED word comes from a busy state; the
word is the one that names the failing state, its poll's FAILED word or CHECKSUM_MISMATCH from VERIFY_CHECKSUM; the step
keeps SR and DATA, and issues no write. -/
def Obligations.FailuresArePreciseAndDoNotNest : Prop :=
  ∀ (s t : State), step s = .next t → t.stateReg.extractLsb' 12 4 = 0x9#4 → t.stateReg ≠ s.stateReg →
    s.busy = true ∧
    (∃ i, decodeStateWord s.stateReg = .instr i ∧
      ((∃ target next, pollOf i = some (target, next, t.stateReg)) ∨ (i = .verifyChecksum ∧ t.stateReg = 0x9C00#16))) ∧
    t.sr = s.sr ∧ t.data = s.data ∧ t.cnt = 0 ∧
    (∀ e ∈ newEngineEvents s t, e.key = 0#1 ++ s.cfg.offDatain) ∧
    (s.quiet = true → t.oe = s.oe ∧ t.dout = s.dout)

/-! ### Invariants -/

/-- The invariant holds at reset. -/
def Obligations.ResetMeetsTheInvariant : Prop := Inv State.reset ∧ PinInv State.reset ∧ HistoryInv State.reset

/-- Every step keeps the invariant of the engine registers (R21, R23, R25, R121, R129), whatever the line, the host
and the other masters do. -/
def Obligations.StepKeepsTheInvariant : Prop :=
  ∀ (s t : State), Inv s → step s = .next t → Inv t

/-- With the exclusivity premise of R166, every step keeps the pin as the state word says: driven low in
DRIVE_START_LOW, driven high in DRIVE_START_HIGH, released from AWAIT_ACK_LOW on (R36, R100, R101, R110). -/
def Obligations.StepKeepsThePinInvariant : Prop :=
  ∀ (s t : State), Inv s → PinInv s → s.exclusive = true → step s = .next t → PinInv t

/-- Every step keeps the history in order and the engine to the five accesses of R71 with the data of R73. -/
def Obligations.StepKeepsTheHistoryInvariant : Prop :=
  ∀ (s t : State), Inv s → HistoryInv s → step s = .next t → HistoryInv t

/-- The line is never read while the pin drives it (R36): under the premises of the pin invariant, a tick that reads
DATAIN begins with OE[PIN] = 1, and with the exclusivity premise of R166 OE[PIN] = 1 still holds at the read itself,
after the other masters' accesses that fall before it. -/
def Obligations.NeverReadsTheLineItDrives : Prop :=
  ∀ (s t : State), Inv s → PinInv s → step s = .next t →
    (∃ e ∈ newEngineEvents s t, e.key = 0#1 ++ s.cfg.offDatain) →
    s.oe.getLsbD s.cfg.pin = true ∧
    (s.exclusive = true → s.othersBefore.oe.getLsbD s.cfg.pin = true ∧ s.othersBefore.drives = none)

/-! ### Runs -/

/-- The bounds of a poll (R104), for every state that polls: entered with CNT 0, the read that first sees the target,
within the first `POLL_BOUND`, moves on in the next tick; `POLL_BOUND` misses fail. -/
def Obligations.PollBoundsAreExact : Prop :=
  ∀ (i : Instr) (target : Bool) (next fail : StateWord) (s : State), pollOf i = some (target, next, fail) →
    s.cfg.wf = true → decodeStateWord s.stateReg = .instr i → s.cnt = 0 → s.calm s.cfg.pollBound →
    (∀ k, k < s.cfg.pollBound → (∀ j, j < k → s.lineAt (s.tick + j) ≠ target) → s.lineAt (s.tick + k) = target →
      ∃ t, runTicks (k + 1) s = .next t ∧ t.stateReg = next ∧ t.cnt = 0 ∧ t.tick = s.tick + k + 1 ∧ t.sr = s.sr ∧
        t.data = s.data) ∧
    ((∀ j, j < s.cfg.pollBound → s.lineAt (s.tick + j) ≠ target) →
      ∃ t, runTicks s.cfg.pollBound s = .next t ∧ t.stateReg = fail ∧ t.cnt = 0 ∧
        t.tick = s.tick + s.cfg.pollBound ∧ t.sr = s.sr ∧ t.data = s.data)

/-- The start pulse (R98, R100, R101): after an accepted ACQUIRE at tick a, with exclusive OE, the pin drives low at
the end of the ticks a to a + T_START_LOW - 1, high up to a + T_START_LOW + T_START_HIGH - 1, and is then released. -/
def Obligations.StartPulseHasTheExactWidths : Prop :=
  ∀ s : State, s.cfg.wf = true → (∃ i, decodeStateWord s.stateReg = .instr i) → restsIn s.stateReg = true →
    s.acqReq = true → s.calm (s.cfg.tStartLow + s.cfg.tStartHigh + 1) →
    (∀ a ∈ s.others, s.tick ≤ a.tick → a.tick ≤ s.tick + s.cfg.tStartLow + s.cfg.tStartHigh →
      a.key ≠ 1#1 ++ s.cfg.offOe) →
    ∀ n, n ≤ s.cfg.tStartLow + s.cfg.tStartHigh →
      ∃ t, runTicks (n + 1) s = .next t ∧
        t.drives =
          (if n < s.cfg.tStartLow then some false
           else if n < s.cfg.tStartLow + s.cfg.tStartHigh then some true else none)

/-- Bit discrimination (R114, R115, R119): entered with CNT 0, a RISE whose line first goes high `g` reads later samples
the line exactly T_SETTLE ticks after that read, whatever the line does in between. -/
def Obligations.SampleIsTakenSettleTicksAfterTheRise : Prop :=
  ∀ (s : State) (b i : Index) (g : Nat), s.cfg.wf = true → decodeStateWord s.stateReg = .instr (.readBitRise b i) →
    s.cnt = 0 → g < s.cfg.pollBound → (∀ j, j < g → s.lineAt (s.tick + j) = false) →
    s.lineAt (s.tick + g) = true → s.calm (g + 1 + s.cfg.tSettle) →
    ∃ t, runTicks (g + 1 + s.cfg.tSettle) s = .next t ∧ decodeStateWord t.stateReg = .instr (.readBitFall b i) ∧
      t.cnt = 0 ∧ t.sr = (s.sr <<< 1) ||| (if s.lineAt (s.tick + g + s.cfg.tSettle) then 1#40 else 0#40)

/-- Every acquisition ends (R111, R174): from an accepted ACQUIRE, whatever the line, further ACQUIREs and the other
masters do, a terminal state is visible after at most L + H + 2 + 3P + 40(2P + S) ticks, which is 27,532 at the
defaults. -/
def Obligations.EveryAcquisitionEndsInBoundedTime : Prop :=
  (∀ s : State, Inv s → restsIn s.stateReg = true → s.acqReq = true → s.calm (acquisitionTicks s.cfg) →
    ∃ n, n ≤ acquisitionTicks s.cfg ∧ ∃ t, runTicks n s = .next t ∧ 0 < n ∧ t.done = true) ∧
  acquisitionTicks Cfg.default = 27532

/-- No acquisition succeeds sooner than R175 says: before L + H + 2 + 3 + 40(2 + S) ticks after an accepted ACQUIRE
(19,315 at the defaults) no state of the run is a SUCCESS. -/
def Obligations.NoSuccessBeforeTheFastestTime : Prop :=
  (∀ (s t : State) (n : Nat), Inv s → restsIn s.stateReg = true → s.acqReq = true → s.rst = false → 0 < n →
    n < fastestSuccessTicks s.cfg → runTicks n s = .next t → t.valid = false) ∧
  fastestSuccessTicks Cfg.default = 19315

/-- A successful reading is the sampled levels (R115, R121, R125, R133): from any busy state of the invariant that holds
k samples, a run that is busy until it reaches SUCCESS samples exactly 40 - k levels, and DATA is SR with those levels
shifted in, one after the other; the checksum of DATA holds. -/
def Obligations.SuccessfulReadingIsTheSampledLevels : Prop :=
  ∀ (s t : State) (n : Nat) (i : Instr), Inv s → s.busy = true → decodeStateWord s.stateReg = .instr i →
    runTicks n s = .next t → t.valid = true →
    (∀ m u, m < n → runTicks m s = .next u → u.busy = true) →
    (samplesOf n s).length + sampleCount i = 40 ∧ t.data = (samplesOf n s).foldl shiftIn s.sr ∧
    checksumOk t.data = true
end

