-- ==== Sys2Proof/Laws/Encoding.lean ====
section
/-! SUPPORT. The small lemmas of the encodings: the fields of an access key and of a packed state word, what each
word the engine writes decodes to, and what a well-formed configuration gives. -/

namespace Sys2Proof

/-! ### Configurations -/

/-- The bounds of the counters in a legal configuration (Table P1). -/
theorem Cfg.bounds_of_wf {c : Cfg} (h : c.wf = true) :
    18000 ≤ c.tStartLow ∧ 20 ≤ c.tStartHigh ∧ c.tStartHigh ≤ 40 ∧ 1 ≤ c.pollBound ∧ 1 ≤ c.tSettle ∧
    c.tStartLow < 2 ^ c.cntW ∧ c.tStartHigh < 2 ^ c.cntW ∧ c.pollBound < 2 ^ c.cntW ∧ c.tSettle < 2 ^ c.cntW := by
  simp only [Cfg.wf, Cfg.startLowOk, Cfg.startHighOk, Cfg.pollOk, Cfg.settleOk, Cfg.cntOk, Bool.and_eq_true,
    decide_eq_true_eq] at h
  omega

/-- The pin and its mask in a legal configuration. -/
theorem Cfg.pin_of_wf {c : Cfg} (h : c.wf = true) : c.pin ≤ 31 ∧ c.mask = 1#32 <<< c.pin := by
  simp only [Cfg.wf, Cfg.pinOk, Bool.and_eq_true, decide_eq_true_eq, beq_iff_eq] at h
  tauto

/-- MASK is one-hot at PIN (R73). -/
theorem Cfg.mask_getLsbD {c : Cfg} (h : c.wf = true) (n : Nat) : c.mask.getLsbD n = decide (n = c.pin) := by
  obtain ⟨hp, hm⟩ := Cfg.pin_of_wf h
  rw [hm, BitVec.getLsbD_shiftLeft]
  by_cases hn : n = c.pin
  · subst hn; simp; omega
  · by_cases h1 : n < c.pin
    · simp [h1, hn]
    · have : n - c.pin ≠ 0 := by omega
      simp [hn, BitVec.getLsbD_one, this]

/-- The four offsets differ in a legal configuration (log 5). -/
theorem Cfg.offsets_of_wf {c : Cfg} (h : c.wf = true) :
    c.offOe ≠ c.offDatain ∧ c.offOe ≠ c.offClr ∧ c.offOe ≠ c.offSet ∧
    c.offDatain ≠ c.offClr ∧ c.offDatain ≠ c.offSet ∧ c.offClr ≠ c.offSet := by
  simp only [Cfg.wf, Bool.and_eq_true] at h
  have := h.1.1.1.1.1.1.1.1.2
  simp [Cfg.offsetsDistinct] at this
  tauto

/-! ### Access keys (R70) -/

@[simp] theorem AccessKey.isWrite_readKey (o : Offset) : AccessKey.isWrite (readKey o) = false := by
  simp only [AccessKey.isWrite, readKey, BitVec.getLsbD_append]; simp

@[simp] theorem AccessKey.isWrite_writeKey (o : Offset) : AccessKey.isWrite (writeKey o) = true := by
  simp only [AccessKey.isWrite, writeKey, BitVec.getLsbD_append]; simp

@[simp] theorem AccessKey.off_readKey (o : Offset) : AccessKey.off (readKey o) = o := by
  apply BitVec.eq_of_getLsbD_eq
  intro i hi
  simp only [AccessKey.off, readKey, BitVec.getLsbD_extractLsb', BitVec.getLsbD_append, hi]
  simp [hi]

@[simp] theorem AccessKey.off_writeKey (o : Offset) : AccessKey.off (writeKey o) = o := by
  apply BitVec.eq_of_getLsbD_eq
  intro i hi
  simp only [AccessKey.off, writeKey, BitVec.getLsbD_extractLsb', BitVec.getLsbD_append, hi]
  simp [hi]

/-- Reads and writes never share a key. -/
theorem readKey_ne_writeKey (o p : Offset) : readKey o ≠ writeKey p := fun h => by
  have := congrArg AccessKey.isWrite h
  simp at this

@[simp] theorem readKey_inj {o p : Offset} : readKey o = readKey p ↔ o = p :=
  ⟨fun h => by simpa using congrArg AccessKey.off h, fun h => h ▸ rfl⟩

@[simp] theorem writeKey_inj {o p : Offset} : writeKey o = writeKey p ↔ o = p :=
  ⟨fun h => by simpa using congrArg AccessKey.off h, fun h => h ▸ rfl⟩

/-- A key is the read key or the write key of its offset. -/
theorem AccessKey.eq_key (k : AccessKey) :
    k = if AccessKey.isWrite k then writeKey (AccessKey.off k) else readKey (AccessKey.off k) := by
  apply BitVec.eq_of_getLsbD_eq
  intro i hi
  by_cases h : i < 12
  · split <;>
      (simp only [readKey, writeKey, BitVec.getLsbD_append, AccessKey.off, BitVec.getLsbD_extractLsb', h]; simp)
  · have : i = 12 := by omega
    subst this
    cases hk : AccessKey.isWrite k
    · simp only [Bool.false_eq_true, if_false, readKey, BitVec.getLsbD_append]; simpa [AccessKey.isWrite] using hk
    · simp only [if_true, writeKey, BitVec.getLsbD_append]; simpa [AccessKey.isWrite] using hk

/-! ### What the words the engine writes decode to (R68) -/

@[simp] theorem decode_idle : decodeStateWord (plainWord 0x0#4) = .instr .idle := by decide
@[simp] theorem decode_driveStartLow : decodeStateWord (plainWord 0x1#4) = .instr .driveStartLow := by decide
@[simp] theorem decode_driveStartHigh : decodeStateWord (plainWord 0x2#4) = .instr .driveStartHigh := by decide
@[simp] theorem decode_awaitAckLow : decodeStateWord (plainWord 0x3#4) = .instr .awaitAckLow := by decide
@[simp] theorem decode_awaitAckHigh : decodeStateWord (plainWord 0x4#4) = .instr .awaitAckHigh := by decide
@[simp] theorem decode_awaitAckEnd : decodeStateWord (plainWord 0x5#4) = .instr .awaitAckEnd := by decide
@[simp] theorem decode_verifyChecksum : decodeStateWord (plainWord 0x7#4) = .instr .verifyChecksum := by decide
@[simp] theorem decode_success : decodeStateWord (plainWord 0x8#4) = .instr .success := by decide

/-- The READ_BIT words of a legal byte index decode to their phases (R65). -/
theorem decode_readBitWord {b : Index} (hb : byteIndexOk b = true) (i : Index) :
    decodeStateWord (readBitWord 0#2 b i) = .instr (.readBitRise b i) ∧
    decodeStateWord (readBitWord 1#2 b i) = .instr (.readBitSettle b i) ∧
    decodeStateWord (readBitWord 2#2 b i) = .instr (.readBitFall b i) := by
  revert i hb b; decide

/-- The FAILED state of a failure at bit (b, i) (R136). -/
def FailKind.state (k : FailKind) (b i : Index) : Instr :=
  match k with
  | .noResponse => .failedNoResponse
  | .stuckLow => .failedStuckLow
  | .stuckHigh => .failedStuckHigh
  | .bitTimeout => .failedBitTimeout b i
  | .bitStuckHigh => .failedBitStuckHigh b i
  | .checksumMismatch => .failedChecksumMismatch

/-- A FAILED word decodes to the state of its failure (R66, R136). -/
theorem decode_failedWord (k : FailKind) {b : Index} (hb : byteIndexOk b = true) (i : Index) :
    decodeStateWord (failedWord k b i) = .instr (k.state b i) := by
  cases k <;> revert i hb b <;> decide

end Sys2Proof

namespace Sys2Proof.Machine

open Sys2Proof

/-- After the last phase of a bit comes the next RISE or the checksum (R118). -/
theorem decode_nextBit {b : Index} (hb : byteIndexOk b = true) (i : Index) :
    decodeStateWord (nextBit b i) =
      .instr (if i.toNat < 7 then .readBitRise b (i + 1#3)
        else if b.toNat < 4 then .readBitRise (b + 1#3) 0#3 else .verifyChecksum) := by
  revert i hb b; decide

/-- The level enters bit 0 and every other bit moves up one place (R115). -/
theorem shiftIn_getLsbD (f : Frame) (level : Bool) (n : Nat) :
    (shiftIn f level).getLsbD n = if n = 0 then level else (decide (n < 40) && f.getLsbD (n - 1)) := by
  simp only [shiftIn, BitVec.getLsbD_append, BitVec.getLsbD_extractLsb']
  cases n with
  | zero => simp
  | succ n => by_cases h : n < 39 <;> simp [h]; all_goals omega

end Sys2Proof.Machine
end

