-- ==== Sys2Proof/Laws/State.lean ====
section
/-! SUPPORT. One lemma per field of State per register update; each is true by definition. -/

namespace Sys2Proof.Machine

open Sys2Proof

variable (s : State)

@[simp] theorem State.goto_cfg (w : StateWord) : (s.goto w).cfg = s.cfg := rfl
@[simp] theorem State.goto_stateReg (w : StateWord) : (s.goto w).stateReg = w := rfl
@[simp] theorem State.goto_cnt (w : StateWord) : (s.goto w).cnt = 0 := rfl
@[simp] theorem State.goto_sr (w : StateWord) : (s.goto w).sr = s.sr := rfl
@[simp] theorem State.goto_data (w : StateWord) : (s.goto w).data = s.data := rfl
@[simp] theorem State.goto_oe (w : StateWord) : (s.goto w).oe = s.oe := rfl
@[simp] theorem State.goto_dout (w : StateWord) : (s.goto w).dout = s.dout := rfl
@[simp] theorem State.goto_tick (w : StateWord) : (s.goto w).tick = s.tick := rfl
@[simp] theorem State.goto_sinceReset (w : StateWord) : (s.goto w).sinceReset = s.sinceReset := rfl
@[simp] theorem State.goto_accesses (w : StateWord) : (s.goto w).accesses = s.accesses := rfl
@[simp] theorem State.goto_history (w : StateWord) : (s.goto w).history = s.history := rfl
@[simp] theorem State.goto_host (w : StateWord) : (s.goto w).host = s.host := rfl
@[simp] theorem State.goto_trace (w : StateWord) : (s.goto w).trace = s.trace := rfl
@[simp] theorem State.goto_others (w : StateWord) : (s.goto w).others = s.others := rfl

@[simp] theorem State.setCnt_cfg (n : Nat) : (s.setCnt n).cfg = s.cfg := rfl
@[simp] theorem State.setCnt_stateReg (n : Nat) : (s.setCnt n).stateReg = s.stateReg := rfl
@[simp] theorem State.setCnt_cnt (n : Nat) : (s.setCnt n).cnt = n := rfl
@[simp] theorem State.setCnt_sr (n : Nat) : (s.setCnt n).sr = s.sr := rfl
@[simp] theorem State.setCnt_data (n : Nat) : (s.setCnt n).data = s.data := rfl
@[simp] theorem State.setCnt_oe (n : Nat) : (s.setCnt n).oe = s.oe := rfl
@[simp] theorem State.setCnt_dout (n : Nat) : (s.setCnt n).dout = s.dout := rfl
@[simp] theorem State.setCnt_tick (n : Nat) : (s.setCnt n).tick = s.tick := rfl
@[simp] theorem State.setCnt_sinceReset (n : Nat) : (s.setCnt n).sinceReset = s.sinceReset := rfl
@[simp] theorem State.setCnt_accesses (n : Nat) : (s.setCnt n).accesses = s.accesses := rfl
@[simp] theorem State.setCnt_history (n : Nat) : (s.setCnt n).history = s.history := rfl
@[simp] theorem State.setCnt_host (n : Nat) : (s.setCnt n).host = s.host := rfl
@[simp] theorem State.setCnt_trace (n : Nat) : (s.setCnt n).trace = s.trace := rfl
@[simp] theorem State.setCnt_others (n : Nat) : (s.setCnt n).others = s.others := rfl

@[simp] theorem State.setSr_cfg (v : Frame) : (s.setSr v).cfg = s.cfg := rfl
@[simp] theorem State.setSr_stateReg (v : Frame) : (s.setSr v).stateReg = s.stateReg := rfl
@[simp] theorem State.setSr_cnt (v : Frame) : (s.setSr v).cnt = s.cnt := rfl
@[simp] theorem State.setSr_sr (v : Frame) : (s.setSr v).sr = v := rfl
@[simp] theorem State.setSr_data (v : Frame) : (s.setSr v).data = s.data := rfl
@[simp] theorem State.setSr_oe (v : Frame) : (s.setSr v).oe = s.oe := rfl
@[simp] theorem State.setSr_dout (v : Frame) : (s.setSr v).dout = s.dout := rfl
@[simp] theorem State.setSr_tick (v : Frame) : (s.setSr v).tick = s.tick := rfl
@[simp] theorem State.setSr_sinceReset (v : Frame) : (s.setSr v).sinceReset = s.sinceReset := rfl
@[simp] theorem State.setSr_accesses (v : Frame) : (s.setSr v).accesses = s.accesses := rfl
@[simp] theorem State.setSr_history (v : Frame) : (s.setSr v).history = s.history := rfl
@[simp] theorem State.setSr_host (v : Frame) : (s.setSr v).host = s.host := rfl
@[simp] theorem State.setSr_trace (v : Frame) : (s.setSr v).trace = s.trace := rfl
@[simp] theorem State.setSr_others (v : Frame) : (s.setSr v).others = s.others := rfl

@[simp] theorem State.setData_cfg (v : Frame) : (s.setData v).cfg = s.cfg := rfl
@[simp] theorem State.setData_stateReg (v : Frame) : (s.setData v).stateReg = s.stateReg := rfl
@[simp] theorem State.setData_cnt (v : Frame) : (s.setData v).cnt = s.cnt := rfl
@[simp] theorem State.setData_sr (v : Frame) : (s.setData v).sr = s.sr := rfl
@[simp] theorem State.setData_data (v : Frame) : (s.setData v).data = v := rfl
@[simp] theorem State.setData_oe (v : Frame) : (s.setData v).oe = s.oe := rfl
@[simp] theorem State.setData_dout (v : Frame) : (s.setData v).dout = s.dout := rfl
@[simp] theorem State.setData_tick (v : Frame) : (s.setData v).tick = s.tick := rfl
@[simp] theorem State.setData_sinceReset (v : Frame) : (s.setData v).sinceReset = s.sinceReset := rfl
@[simp] theorem State.setData_accesses (v : Frame) : (s.setData v).accesses = s.accesses := rfl
@[simp] theorem State.setData_history (v : Frame) : (s.setData v).history = s.history := rfl
@[simp] theorem State.setData_host (v : Frame) : (s.setData v).host = s.host := rfl
@[simp] theorem State.setData_trace (v : Frame) : (s.setData v).trace = s.trace := rfl
@[simp] theorem State.setData_others (v : Frame) : (s.setData v).others = s.others := rfl

@[simp] theorem State.setOe_cfg (v : GpioWord) : (s.setOe v).cfg = s.cfg := rfl
@[simp] theorem State.setOe_stateReg (v : GpioWord) : (s.setOe v).stateReg = s.stateReg := rfl
@[simp] theorem State.setOe_cnt (v : GpioWord) : (s.setOe v).cnt = s.cnt := rfl
@[simp] theorem State.setOe_sr (v : GpioWord) : (s.setOe v).sr = s.sr := rfl
@[simp] theorem State.setOe_data (v : GpioWord) : (s.setOe v).data = s.data := rfl
@[simp] theorem State.setOe_oe (v : GpioWord) : (s.setOe v).oe = v := rfl
@[simp] theorem State.setOe_dout (v : GpioWord) : (s.setOe v).dout = s.dout := rfl
@[simp] theorem State.setOe_tick (v : GpioWord) : (s.setOe v).tick = s.tick := rfl
@[simp] theorem State.setOe_sinceReset (v : GpioWord) : (s.setOe v).sinceReset = s.sinceReset := rfl
@[simp] theorem State.setOe_accesses (v : GpioWord) : (s.setOe v).accesses = s.accesses := rfl
@[simp] theorem State.setOe_history (v : GpioWord) : (s.setOe v).history = s.history := rfl
@[simp] theorem State.setOe_host (v : GpioWord) : (s.setOe v).host = s.host := rfl
@[simp] theorem State.setOe_trace (v : GpioWord) : (s.setOe v).trace = s.trace := rfl
@[simp] theorem State.setOe_others (v : GpioWord) : (s.setOe v).others = s.others := rfl

@[simp] theorem State.setDout_cfg (v : GpioWord) : (s.setDout v).cfg = s.cfg := rfl
@[simp] theorem State.setDout_stateReg (v : GpioWord) : (s.setDout v).stateReg = s.stateReg := rfl
@[simp] theorem State.setDout_cnt (v : GpioWord) : (s.setDout v).cnt = s.cnt := rfl
@[simp] theorem State.setDout_sr (v : GpioWord) : (s.setDout v).sr = s.sr := rfl
@[simp] theorem State.setDout_data (v : GpioWord) : (s.setDout v).data = s.data := rfl
@[simp] theorem State.setDout_oe (v : GpioWord) : (s.setDout v).oe = s.oe := rfl
@[simp] theorem State.setDout_dout (v : GpioWord) : (s.setDout v).dout = v := rfl
@[simp] theorem State.setDout_tick (v : GpioWord) : (s.setDout v).tick = s.tick := rfl
@[simp] theorem State.setDout_sinceReset (v : GpioWord) : (s.setDout v).sinceReset = s.sinceReset := rfl
@[simp] theorem State.setDout_accesses (v : GpioWord) : (s.setDout v).accesses = s.accesses := rfl
@[simp] theorem State.setDout_history (v : GpioWord) : (s.setDout v).history = s.history := rfl
@[simp] theorem State.setDout_host (v : GpioWord) : (s.setDout v).host = s.host := rfl
@[simp] theorem State.setDout_trace (v : GpioWord) : (s.setDout v).trace = s.trace := rfl
@[simp] theorem State.setDout_others (v : GpioWord) : (s.setDout v).others = s.others := rfl

@[simp] theorem State.record_cfg (m : Master) (k : AccessKey) (v : GpioWord) : (s.record m k v).cfg = s.cfg := rfl
@[simp] theorem State.record_stateReg (m : Master) (k : AccessKey) (v : GpioWord) : (s.record m k v).stateReg = s.stateReg := rfl
@[simp] theorem State.record_cnt (m : Master) (k : AccessKey) (v : GpioWord) : (s.record m k v).cnt = s.cnt := rfl
@[simp] theorem State.record_sr (m : Master) (k : AccessKey) (v : GpioWord) : (s.record m k v).sr = s.sr := rfl
@[simp] theorem State.record_data (m : Master) (k : AccessKey) (v : GpioWord) : (s.record m k v).data = s.data := rfl
@[simp] theorem State.record_oe (m : Master) (k : AccessKey) (v : GpioWord) : (s.record m k v).oe = s.oe := rfl
@[simp] theorem State.record_dout (m : Master) (k : AccessKey) (v : GpioWord) : (s.record m k v).dout = s.dout := rfl
@[simp] theorem State.record_tick (m : Master) (k : AccessKey) (v : GpioWord) : (s.record m k v).tick = s.tick := rfl
@[simp] theorem State.record_sinceReset (m : Master) (k : AccessKey) (v : GpioWord) : (s.record m k v).sinceReset = s.sinceReset := rfl
@[simp] theorem State.record_accesses (m : Master) (k : AccessKey) (v : GpioWord) : (s.record m k v).accesses = s.accesses := rfl
@[simp] theorem State.record_history (m : Master) (k : AccessKey) (v : GpioWord) : (s.record m k v).history = ⟨s.tick, k, v, m⟩ :: s.history := rfl
@[simp] theorem State.record_host (m : Master) (k : AccessKey) (v : GpioWord) : (s.record m k v).host = s.host := rfl
@[simp] theorem State.record_trace (m : Master) (k : AccessKey) (v : GpioWord) : (s.record m k v).trace = s.trace := rfl
@[simp] theorem State.record_others (m : Master) (k : AccessKey) (v : GpioWord) : (s.record m k v).others = s.others := rfl

@[simp] theorem State.countAccess_cfg : (s.countAccess).cfg = s.cfg := rfl
@[simp] theorem State.countAccess_stateReg : (s.countAccess).stateReg = s.stateReg := rfl
@[simp] theorem State.countAccess_cnt : (s.countAccess).cnt = s.cnt := rfl
@[simp] theorem State.countAccess_sr : (s.countAccess).sr = s.sr := rfl
@[simp] theorem State.countAccess_data : (s.countAccess).data = s.data := rfl
@[simp] theorem State.countAccess_oe : (s.countAccess).oe = s.oe := rfl
@[simp] theorem State.countAccess_dout : (s.countAccess).dout = s.dout := rfl
@[simp] theorem State.countAccess_tick : (s.countAccess).tick = s.tick := rfl
@[simp] theorem State.countAccess_sinceReset : (s.countAccess).sinceReset = s.sinceReset := rfl
@[simp] theorem State.countAccess_accesses : (s.countAccess).accesses = s.accesses + 1 := rfl
@[simp] theorem State.countAccess_history : (s.countAccess).history = s.history := rfl
@[simp] theorem State.countAccess_host : (s.countAccess).host = s.host := rfl
@[simp] theorem State.countAccess_trace : (s.countAccess).trace = s.trace := rfl
@[simp] theorem State.countAccess_others : (s.countAccess).others = s.others := rfl

@[simp] theorem State.nextTick_cfg : (s.nextTick).cfg = s.cfg := rfl
@[simp] theorem State.nextTick_stateReg : (s.nextTick).stateReg = s.stateReg := rfl
@[simp] theorem State.nextTick_cnt : (s.nextTick).cnt = s.cnt := rfl
@[simp] theorem State.nextTick_sr : (s.nextTick).sr = s.sr := rfl
@[simp] theorem State.nextTick_data : (s.nextTick).data = s.data := rfl
@[simp] theorem State.nextTick_oe : (s.nextTick).oe = s.oe := rfl
@[simp] theorem State.nextTick_dout : (s.nextTick).dout = s.dout := rfl
@[simp] theorem State.nextTick_tick : (s.nextTick).tick = s.tick + 1 := rfl
@[simp] theorem State.nextTick_sinceReset : (s.nextTick).sinceReset = s.sinceReset + 1 := rfl
@[simp] theorem State.nextTick_accesses : (s.nextTick).accesses = 0 := rfl
@[simp] theorem State.nextTick_history : (s.nextTick).history = s.history := rfl
@[simp] theorem State.nextTick_host : (s.nextTick).host = s.host := rfl
@[simp] theorem State.nextTick_trace : (s.nextTick).trace = s.trace := rfl
@[simp] theorem State.nextTick_others : (s.nextTick).others = s.others := rfl

@[simp] theorem State.setSinceReset_cfg (n : Nat) : (s.setSinceReset n).cfg = s.cfg := rfl
@[simp] theorem State.setSinceReset_stateReg (n : Nat) : (s.setSinceReset n).stateReg = s.stateReg := rfl
@[simp] theorem State.setSinceReset_cnt (n : Nat) : (s.setSinceReset n).cnt = s.cnt := rfl
@[simp] theorem State.setSinceReset_sr (n : Nat) : (s.setSinceReset n).sr = s.sr := rfl
@[simp] theorem State.setSinceReset_data (n : Nat) : (s.setSinceReset n).data = s.data := rfl
@[simp] theorem State.setSinceReset_oe (n : Nat) : (s.setSinceReset n).oe = s.oe := rfl
@[simp] theorem State.setSinceReset_dout (n : Nat) : (s.setSinceReset n).dout = s.dout := rfl
@[simp] theorem State.setSinceReset_tick (n : Nat) : (s.setSinceReset n).tick = s.tick := rfl
@[simp] theorem State.setSinceReset_sinceReset (n : Nat) : (s.setSinceReset n).sinceReset = n := rfl
@[simp] theorem State.setSinceReset_accesses (n : Nat) : (s.setSinceReset n).accesses = s.accesses := rfl
@[simp] theorem State.setSinceReset_history (n : Nat) : (s.setSinceReset n).history = s.history := rfl
@[simp] theorem State.setSinceReset_host (n : Nat) : (s.setSinceReset n).host = s.host := rfl
@[simp] theorem State.setSinceReset_trace (n : Nat) : (s.setSinceReset n).trace = s.trace := rfl
@[simp] theorem State.setSinceReset_others (n : Nat) : (s.setSinceReset n).others = s.others := rfl

end Sys2Proof.Machine
end

