-- ==== Sys2Proof/Laws/Ops.lean ====
section
/-! SUPPORT. One lemma for each shared operation that says what it can do; later proofs cite these and do not unfold
the operations. -/

namespace Sys2Proof.Machine

open Sys2Proof

/-! ### The other masters change only the bank and the history (R60, R80) -/

variable (s : State)

@[simp] theorem State.applyOther_cfg (a : OtherAccess) : (s.applyOther a).cfg = s.cfg := by
  unfold State.applyOther; split <;> rfl
@[simp] theorem State.applyOther_stateReg (a : OtherAccess) : (s.applyOther a).stateReg = s.stateReg := by
  unfold State.applyOther; split <;> rfl
@[simp] theorem State.applyOther_cnt (a : OtherAccess) : (s.applyOther a).cnt = s.cnt := by
  unfold State.applyOther; split <;> rfl
@[simp] theorem State.applyOther_sr (a : OtherAccess) : (s.applyOther a).sr = s.sr := by
  unfold State.applyOther; split <;> rfl
@[simp] theorem State.applyOther_data (a : OtherAccess) : (s.applyOther a).data = s.data := by
  unfold State.applyOther; split <;> rfl
@[simp] theorem State.applyOther_tick (a : OtherAccess) : (s.applyOther a).tick = s.tick := by
  unfold State.applyOther; split <;> rfl
@[simp] theorem State.applyOther_sinceReset (a : OtherAccess) : (s.applyOther a).sinceReset = s.sinceReset := by
  unfold State.applyOther; split <;> rfl
@[simp] theorem State.applyOther_accesses (a : OtherAccess) : (s.applyOther a).accesses = s.accesses := by
  unfold State.applyOther; split <;> rfl
@[simp] theorem State.applyOther_host (a : OtherAccess) : (s.applyOther a).host = s.host := by
  unfold State.applyOther; split <;> rfl
@[simp] theorem State.applyOther_trace (a : OtherAccess) : (s.applyOther a).trace = s.trace := by
  unfold State.applyOther; split <;> rfl
@[simp] theorem State.applyOther_others (a : OtherAccess) : (s.applyOther a).others = s.others := by
  unfold State.applyOther; split <;> rfl

@[simp] theorem State.applyOthers_cfg (l : List OtherAccess) : (l.foldl State.applyOther s).cfg = s.cfg := by
  induction l generalizing s with
  | nil => rfl
  | cons a l ih => simp [ih]
@[simp] theorem State.applyOthers_stateReg (l : List OtherAccess) : (l.foldl State.applyOther s).stateReg = s.stateReg := by
  induction l generalizing s with
  | nil => rfl
  | cons a l ih => simp [ih]
@[simp] theorem State.applyOthers_cnt (l : List OtherAccess) : (l.foldl State.applyOther s).cnt = s.cnt := by
  induction l generalizing s with
  | nil => rfl
  | cons a l ih => simp [ih]
@[simp] theorem State.applyOthers_sr (l : List OtherAccess) : (l.foldl State.applyOther s).sr = s.sr := by
  induction l generalizing s with
  | nil => rfl
  | cons a l ih => simp [ih]
@[simp] theorem State.applyOthers_data (l : List OtherAccess) : (l.foldl State.applyOther s).data = s.data := by
  induction l generalizing s with
  | nil => rfl
  | cons a l ih => simp [ih]
@[simp] theorem State.applyOthers_tick (l : List OtherAccess) : (l.foldl State.applyOther s).tick = s.tick := by
  induction l generalizing s with
  | nil => rfl
  | cons a l ih => simp [ih]
@[simp] theorem State.applyOthers_sinceReset (l : List OtherAccess) : (l.foldl State.applyOther s).sinceReset = s.sinceReset := by
  induction l generalizing s with
  | nil => rfl
  | cons a l ih => simp [ih]
@[simp] theorem State.applyOthers_accesses (l : List OtherAccess) : (l.foldl State.applyOther s).accesses = s.accesses := by
  induction l generalizing s with
  | nil => rfl
  | cons a l ih => simp [ih]
@[simp] theorem State.applyOthers_host (l : List OtherAccess) : (l.foldl State.applyOther s).host = s.host := by
  induction l generalizing s with
  | nil => rfl
  | cons a l ih => simp [ih]
@[simp] theorem State.applyOthers_trace (l : List OtherAccess) : (l.foldl State.applyOther s).trace = s.trace := by
  induction l generalizing s with
  | nil => rfl
  | cons a l ih => simp [ih]
@[simp] theorem State.applyOthers_others (l : List OtherAccess) : (l.foldl State.applyOther s).others = s.others := by
  induction l generalizing s with
  | nil => rfl
  | cons a l ih => simp [ih]

@[simp] theorem State.othersBefore_cfg : s.othersBefore.cfg = s.cfg := State.applyOthers_cfg s _
@[simp] theorem State.othersBefore_stateReg : s.othersBefore.stateReg = s.stateReg := State.applyOthers_stateReg s _
@[simp] theorem State.othersBefore_cnt : s.othersBefore.cnt = s.cnt := State.applyOthers_cnt s _
@[simp] theorem State.othersBefore_sr : s.othersBefore.sr = s.sr := State.applyOthers_sr s _
@[simp] theorem State.othersBefore_data : s.othersBefore.data = s.data := State.applyOthers_data s _
@[simp] theorem State.othersBefore_tick : s.othersBefore.tick = s.tick := State.applyOthers_tick s _
@[simp] theorem State.othersBefore_sinceReset : s.othersBefore.sinceReset = s.sinceReset := State.applyOthers_sinceReset s _
@[simp] theorem State.othersBefore_accesses : s.othersBefore.accesses = s.accesses := State.applyOthers_accesses s _
@[simp] theorem State.othersBefore_host : s.othersBefore.host = s.host := State.applyOthers_host s _
@[simp] theorem State.othersBefore_trace : s.othersBefore.trace = s.trace := State.applyOthers_trace s _
@[simp] theorem State.othersBefore_others : s.othersBefore.others = s.others := State.applyOthers_others s _

@[simp] theorem State.othersAfter_cfg : s.othersAfter.cfg = s.cfg := State.applyOthers_cfg s _
@[simp] theorem State.othersAfter_stateReg : s.othersAfter.stateReg = s.stateReg := State.applyOthers_stateReg s _
@[simp] theorem State.othersAfter_cnt : s.othersAfter.cnt = s.cnt := State.applyOthers_cnt s _
@[simp] theorem State.othersAfter_sr : s.othersAfter.sr = s.sr := State.applyOthers_sr s _
@[simp] theorem State.othersAfter_data : s.othersAfter.data = s.data := State.applyOthers_data s _
@[simp] theorem State.othersAfter_tick : s.othersAfter.tick = s.tick := State.applyOthers_tick s _
@[simp] theorem State.othersAfter_sinceReset : s.othersAfter.sinceReset = s.sinceReset := State.applyOthers_sinceReset s _
@[simp] theorem State.othersAfter_accesses : s.othersAfter.accesses = s.accesses := State.applyOthers_accesses s _
@[simp] theorem State.othersAfter_host : s.othersAfter.host = s.host := State.applyOthers_host s _
@[simp] theorem State.othersAfter_trace : s.othersAfter.trace = s.trace := State.applyOthers_trace s _
@[simp] theorem State.othersAfter_others : s.othersAfter.others = s.others := State.applyOthers_others s _

/-- In a tick without other masters nothing falls before an access of the engine. -/
theorem State.othersBefore_of_quiet (h : s.quiet = true) : s.othersBefore = s := by
  have : (s.others.filter fun a => a.tick == s.tick && a.slot == s.accesses) = [] := by
    simp only [State.quiet, List.all_eq_true, bne_iff_ne] at h
    simp only [List.filter_eq_nil_iff, Bool.and_eq_true, beq_iff_eq]
    exact fun a ha hc => h a ha hc.1
  simp [State.othersBefore, this]

/-- In a tick without other masters nothing falls after the engine's accesses. -/
theorem State.othersAfter_of_quiet (h : s.quiet = true) : s.othersAfter = s := by
  have : (s.others.filter fun a => a.tick == s.tick && decide (s.accesses ≤ a.slot)) = [] := by
    simp only [State.quiet, List.all_eq_true, bne_iff_ne] at h
    simp only [List.filter_eq_nil_iff, Bool.and_eq_true, beq_iff_eq]
    exact fun a ha hc => h a ha hc.1
  simp [State.othersAfter, this]

/-- Being a tick without other masters does not depend on the registers or the bank. -/
theorem State.quiet_congr {s t : State} (ht : t.tick = s.tick) (ho : t.others = s.others) : t.quiet = s.quiet := by
  simp [State.quiet, ht, ho]

/-! ### Inputs depend on the schedules, the tick and the configuration alone -/

theorem State.datainWord_congr {s t : State} (ht : t.tick = s.tick) (hl : t.trace = s.trace) :
    t.datainWord = s.datainWord := by simp [State.datainWord, ht, hl]

theorem State.line_congr {s t : State} (hc : t.cfg = s.cfg) (ht : t.tick = s.tick) (hl : t.trace = s.trace) :
    t.line = s.line := by simp [State.line, State.datainWord_congr ht hl, hc]

/-- The level of the current tick is `Line(t)` at this tick (R54). -/
theorem State.line_eq_lineAt : s.line = s.lineAt s.tick := rfl

@[simp] theorem State.othersBefore_datainWord : s.othersBefore.datainWord = s.datainWord :=
  State.datainWord_congr (by simp) (by simp)

@[simp] theorem State.othersBefore_line : s.othersBefore.line = s.line := State.line_congr (by simp) (by simp) (by simp)

/-! ### The engine's read, the poll and the hold (R82, R88, R103) -/

@[simp] theorem State.engineDatainRd_snd : s.engineDatainRd.2 = s.afterRead := by
  simp [State.engineDatainRd, State.datainRead, State.countAccess, State.record, State.afterRead]

@[simp] theorem State.readLevel_fst : s.readLevel.1 = s.line := by
  simp [State.readLevel, State.engineDatainRd, State.datainRead, State.line]

@[simp] theorem State.readLevel_snd : s.readLevel.2 = s.afterRead := by simp [State.readLevel]

/-- Everything a poll can do (R103). -/
theorem State.poll_eq (target : Bool) (next : StateWord) (k : FailKind) (b i : Index) :
    s.poll target next k b i =
      if s.line = target then s.afterRead.goto next
      else if s.cntSucc = s.cfg.pollBound then s.afterRead.goto (failedWord k b i)
      else s.afterRead.setCnt s.cntSucc := by
  simp [State.poll, State.raiseFail]

/-- Everything a hold can do. -/
theorem State.hold_eq (n : Nat) (act : State → State) :
    s.hold n act = if s.cntSucc = n then act s else s.setCnt s.cntSucc := rfl

/-- CNT does not wrap below 2^CNT_W (R23). -/
theorem State.cntSucc_of_lt (h : s.cnt + 1 < 2 ^ s.cfg.cntW) : s.cntSucc = s.cnt + 1 := Nat.mod_eq_of_lt h

/-! ### The two-access primitives and the start of an acquisition (R86, R87, R98) -/

/-- SETDIR.OUT in a tick without other masters (R86). -/
theorem State.setDirOut_of_quiet (h : s.quiet = true) :
    s.setDirOut = { s with
      oe := s.oe &&& ~~~s.cfg.mask
      accesses := s.accesses + 2
      history := ⟨s.tick, writeKey s.cfg.offOe, s.oe &&& ~~~s.cfg.mask, .engine⟩ ::
        ⟨s.tick, readKey s.cfg.offOe, s.oe, .engine⟩ :: s.history } := by
  have h1 := s.othersBefore_of_quiet h
  have h2 : s.engineOeRd.2.othersBefore = s.engineOeRd.2 :=
    State.othersBefore_of_quiet _ ((State.quiet_congr (by simp [State.engineOeRd, State.oeRead]) (by
      simp [State.engineOeRd, State.oeRead])).trans h)
  unfold State.setDirOut State.engineOeWr
  rw [h2]
  simp [State.engineOeRd, State.oeRead, h1, State.oeWrite, State.setOe, State.record, State.countAccess]

/-- SETDIR.IN in a tick without other masters (R87). -/
theorem State.setDirIn_of_quiet (h : s.quiet = true) :
    s.setDirIn = { s with
      oe := s.oe ||| s.cfg.mask
      accesses := s.accesses + 2
      history := ⟨s.tick, writeKey s.cfg.offOe, s.oe ||| s.cfg.mask, .engine⟩ ::
        ⟨s.tick, readKey s.cfg.offOe, s.oe, .engine⟩ :: s.history } := by
  have h1 := s.othersBefore_of_quiet h
  have h2 : s.engineOeRd.2.othersBefore = s.engineOeRd.2 :=
    State.othersBefore_of_quiet _ ((State.quiet_congr (by simp [State.engineOeRd, State.oeRead]) (by
      simp [State.engineOeRd, State.oeRead])).trans h)
  unfold State.setDirIn State.engineOeWr
  rw [h2]
  simp [State.engineOeRd, State.oeRead, h1, State.oeWrite, State.setOe, State.record, State.countAccess]

@[simp] theorem State.setDirOut_cfg : s.setDirOut.cfg = s.cfg := by simp [State.setDirOut, State.engineOeWr, State.engineOeRd, State.oeRead, State.oeWrite]
@[simp] theorem State.setDirOut_stateReg : s.setDirOut.stateReg = s.stateReg := by simp [State.setDirOut, State.engineOeWr, State.engineOeRd, State.oeRead, State.oeWrite]
@[simp] theorem State.setDirOut_cnt : s.setDirOut.cnt = s.cnt := by simp [State.setDirOut, State.engineOeWr, State.engineOeRd, State.oeRead, State.oeWrite]
@[simp] theorem State.setDirOut_sr : s.setDirOut.sr = s.sr := by simp [State.setDirOut, State.engineOeWr, State.engineOeRd, State.oeRead, State.oeWrite]
@[simp] theorem State.setDirOut_data : s.setDirOut.data = s.data := by simp [State.setDirOut, State.engineOeWr, State.engineOeRd, State.oeRead, State.oeWrite]
@[simp] theorem State.setDirOut_tick : s.setDirOut.tick = s.tick := by simp [State.setDirOut, State.engineOeWr, State.engineOeRd, State.oeRead, State.oeWrite]
@[simp] theorem State.setDirOut_sinceReset : s.setDirOut.sinceReset = s.sinceReset := by simp [State.setDirOut, State.engineOeWr, State.engineOeRd, State.oeRead, State.oeWrite]
@[simp] theorem State.setDirOut_host : s.setDirOut.host = s.host := by simp [State.setDirOut, State.engineOeWr, State.engineOeRd, State.oeRead, State.oeWrite]
@[simp] theorem State.setDirOut_trace : s.setDirOut.trace = s.trace := by simp [State.setDirOut, State.engineOeWr, State.engineOeRd, State.oeRead, State.oeWrite]
@[simp] theorem State.setDirOut_others : s.setDirOut.others = s.others := by simp [State.setDirOut, State.engineOeWr, State.engineOeRd, State.oeRead, State.oeWrite]
@[simp] theorem State.setDirOut_accesses : s.setDirOut.accesses = s.accesses + 2 := by simp [State.setDirOut, State.engineOeWr, State.engineOeRd, State.oeRead, State.oeWrite]

@[simp] theorem State.setDirIn_cfg : s.setDirIn.cfg = s.cfg := by simp [State.setDirIn, State.engineOeWr, State.engineOeRd, State.oeRead, State.oeWrite]
@[simp] theorem State.setDirIn_stateReg : s.setDirIn.stateReg = s.stateReg := by simp [State.setDirIn, State.engineOeWr, State.engineOeRd, State.oeRead, State.oeWrite]
@[simp] theorem State.setDirIn_cnt : s.setDirIn.cnt = s.cnt := by simp [State.setDirIn, State.engineOeWr, State.engineOeRd, State.oeRead, State.oeWrite]
@[simp] theorem State.setDirIn_sr : s.setDirIn.sr = s.sr := by simp [State.setDirIn, State.engineOeWr, State.engineOeRd, State.oeRead, State.oeWrite]
@[simp] theorem State.setDirIn_data : s.setDirIn.data = s.data := by simp [State.setDirIn, State.engineOeWr, State.engineOeRd, State.oeRead, State.oeWrite]
@[simp] theorem State.setDirIn_tick : s.setDirIn.tick = s.tick := by simp [State.setDirIn, State.engineOeWr, State.engineOeRd, State.oeRead, State.oeWrite]
@[simp] theorem State.setDirIn_sinceReset : s.setDirIn.sinceReset = s.sinceReset := by simp [State.setDirIn, State.engineOeWr, State.engineOeRd, State.oeRead, State.oeWrite]
@[simp] theorem State.setDirIn_host : s.setDirIn.host = s.host := by simp [State.setDirIn, State.engineOeWr, State.engineOeRd, State.oeRead, State.oeWrite]
@[simp] theorem State.setDirIn_trace : s.setDirIn.trace = s.trace := by simp [State.setDirIn, State.engineOeWr, State.engineOeRd, State.oeRead, State.oeWrite]
@[simp] theorem State.setDirIn_others : s.setDirIn.others = s.others := by simp [State.setDirIn, State.engineOeWr, State.engineOeRd, State.oeRead, State.oeWrite]
@[simp] theorem State.setDirIn_accesses : s.setDirIn.accesses = s.accesses + 2 := by simp [State.setDirIn, State.engineOeWr, State.engineOeRd, State.oeRead, State.oeWrite]

@[simp] theorem State.driveHigh_cfg : s.driveHigh.cfg = s.cfg := by simp [State.driveHigh, State.engineSetWr, State.setWrite]
@[simp] theorem State.driveHigh_stateReg : s.driveHigh.stateReg = s.stateReg := by simp [State.driveHigh, State.engineSetWr, State.setWrite]
@[simp] theorem State.driveHigh_cnt : s.driveHigh.cnt = s.cnt := by simp [State.driveHigh, State.engineSetWr, State.setWrite]
@[simp] theorem State.driveHigh_sr : s.driveHigh.sr = s.sr := by simp [State.driveHigh, State.engineSetWr, State.setWrite]
@[simp] theorem State.driveHigh_data : s.driveHigh.data = s.data := by simp [State.driveHigh, State.engineSetWr, State.setWrite]
@[simp] theorem State.driveHigh_tick : s.driveHigh.tick = s.tick := by simp [State.driveHigh, State.engineSetWr, State.setWrite]
@[simp] theorem State.driveHigh_sinceReset : s.driveHigh.sinceReset = s.sinceReset := by simp [State.driveHigh, State.engineSetWr, State.setWrite]
@[simp] theorem State.driveHigh_host : s.driveHigh.host = s.host := by simp [State.driveHigh, State.engineSetWr, State.setWrite]
@[simp] theorem State.driveHigh_trace : s.driveHigh.trace = s.trace := by simp [State.driveHigh, State.engineSetWr, State.setWrite]
@[simp] theorem State.driveHigh_others : s.driveHigh.others = s.others := by simp [State.driveHigh, State.engineSetWr, State.setWrite]
@[simp] theorem State.driveHigh_accesses : s.driveHigh.accesses = s.accesses + 1 := by simp [State.driveHigh, State.engineSetWr, State.setWrite]

@[simp] theorem State.driveLow_cfg : s.driveLow.cfg = s.cfg := by simp [State.driveLow, State.engineClrWr, State.clrWrite]
@[simp] theorem State.driveLow_stateReg : s.driveLow.stateReg = s.stateReg := by simp [State.driveLow, State.engineClrWr, State.clrWrite]
@[simp] theorem State.driveLow_cnt : s.driveLow.cnt = s.cnt := by simp [State.driveLow, State.engineClrWr, State.clrWrite]
@[simp] theorem State.driveLow_sr : s.driveLow.sr = s.sr := by simp [State.driveLow, State.engineClrWr, State.clrWrite]
@[simp] theorem State.driveLow_data : s.driveLow.data = s.data := by simp [State.driveLow, State.engineClrWr, State.clrWrite]
@[simp] theorem State.driveLow_tick : s.driveLow.tick = s.tick := by simp [State.driveLow, State.engineClrWr, State.clrWrite]
@[simp] theorem State.driveLow_sinceReset : s.driveLow.sinceReset = s.sinceReset := by simp [State.driveLow, State.engineClrWr, State.clrWrite]
@[simp] theorem State.driveLow_host : s.driveLow.host = s.host := by simp [State.driveLow, State.engineClrWr, State.clrWrite]
@[simp] theorem State.driveLow_trace : s.driveLow.trace = s.trace := by simp [State.driveLow, State.engineClrWr, State.clrWrite]
@[simp] theorem State.driveLow_others : s.driveLow.others = s.others := by simp [State.driveLow, State.engineClrWr, State.clrWrite]
@[simp] theorem State.driveLow_accesses : s.driveLow.accesses = s.accesses + 1 := by simp [State.driveLow, State.engineClrWr, State.clrWrite]

/-- DRIVE.HIGH in a tick without other masters (R89). -/
theorem State.driveHigh_of_quiet (h : s.quiet = true) :
    s.driveHigh = { s with
      dout := s.dout ||| s.cfg.mask
      accesses := s.accesses + 1
      history := ⟨s.tick, writeKey s.cfg.offSet, s.cfg.mask, .engine⟩ :: s.history } := by
  simp [State.driveHigh, State.engineSetWr, s.othersBefore_of_quiet h, State.setWrite, State.setDout, State.record,
    State.countAccess]

/-- DRIVE.LOW in a tick without other masters (R90). -/
theorem State.driveLow_of_quiet (h : s.quiet = true) :
    s.driveLow = { s with
      dout := s.dout &&& ~~~s.cfg.mask
      accesses := s.accesses + 1
      history := ⟨s.tick, writeKey s.cfg.offClr, s.cfg.mask, .engine⟩ :: s.history } := by
  simp [State.driveLow, State.engineClrWr, s.othersBefore_of_quiet h, State.clrWrite, State.setDout, State.record,
    State.countAccess]

/-! ### The reset tick (R157) -/

@[simp] theorem State.resetTick_cfg : s.resetTick.cfg = s.cfg := by
  simp [State.resetTick, State.endTick, State.resetEngine]
@[simp] theorem State.resetTick_stateReg : s.resetTick.stateReg = 0x0000#16 := by
  simp [State.resetTick, State.endTick, State.resetEngine]; rfl
@[simp] theorem State.resetTick_cnt : s.resetTick.cnt = 0 := by
  simp [State.resetTick, State.endTick, State.resetEngine]
@[simp] theorem State.resetTick_sr : s.resetTick.sr = 0#40 := by
  simp [State.resetTick, State.endTick, State.resetEngine]
@[simp] theorem State.resetTick_data : s.resetTick.data = 0#40 := by
  simp [State.resetTick, State.endTick, State.resetEngine]
@[simp] theorem State.resetTick_tick : s.resetTick.tick = s.tick + 1 := by
  simp [State.resetTick, State.endTick, State.resetEngine]
@[simp] theorem State.resetTick_sinceReset : s.resetTick.sinceReset = 0 := by
  simp [State.resetTick, State.endTick, State.resetEngine]
@[simp] theorem State.resetTick_accesses : s.resetTick.accesses = 0 := by
  simp [State.resetTick, State.endTick, State.resetEngine]
@[simp] theorem State.resetTick_host : s.resetTick.host = s.host := by
  simp [State.resetTick, State.endTick, State.resetEngine]
@[simp] theorem State.resetTick_trace : s.resetTick.trace = s.trace := by
  simp [State.resetTick, State.endTick, State.resetEngine]
@[simp] theorem State.resetTick_others : s.resetTick.others = s.others := by
  simp [State.resetTick, State.endTick, State.resetEngine]

/-! ### The step -/

/-- Everything a step that answers a next state has done (R95). -/
theorem step_next {s t : State} (h : step s = .next t) :
    s.admissible = true ∧
    ((s.rst = true ∧ t = s.resetTick) ∨
     (s.rst = false ∧ ∃ i u, s.selected = .instr i ∧ exec i s = .next u ∧ t = u.endTick)) := by
  unfold step at h
  split at h
  · cases h
  rename_i hw
  split at h
  · cases h
  rename_i hu
  split at h
  · cases h
  rename_i hd
  refine ⟨by simp_all [State.admissible], ?_⟩
  split at h
  · rename_i hr
    exact .inl ⟨hr, by cases h; rfl⟩
  rename_i hr
  split at h
  · cases h
  rename_i i hi
  split at h
  · rename_i u hu
    exact .inr ⟨by simpa using hr, i, u, hi, hu, by cases h; rfl⟩
  · cases h
  · cases h

/-! ### Runs -/

@[simp] theorem runTicks_zero (s : State) : runTicks 0 s = .next s := rfl

/-- A run of `n + 1` steps that answers a next state: one step, then `n`. -/
theorem runTicks_succ {n : Nat} {s u : State} :
    runTicks (n + 1) s = .next u ↔ ∃ t, step s = .next t ∧ runTicks n t = .next u := by
  simp only [runTicks]
  cases h : step s <;> simp

/-- `runTicks` is the host's run of this machine. -/
theorem core_run_eq (n : Nat) (s : State) : core.run n s = runTicks n s := by
  induction n generalizing s with
  | zero => exact Host.Core.run.eq_1 core s
  | succ n ih =>
    refine (Host.Core.run.eq_2 core s n).trans ?_
    have hs : core.step s = step s := rfl
    simp only [runTicks]
    rw [hs]
    cases step s with
    | next t => exact ih t
    | fault r => rfl
    | refused r => rfl

/-- In a tick the spec does not refuse, the step runs the selected instruction. -/
theorem step_of_selected {s : State} {i : Instr} {u : State} (ha : s.admissible = true) (hr : s.rst = false)
    (hi : s.selected = .instr i) (hu : exec i s = .next u) : step s = .next u.endTick := by
  simp only [State.admissible, Bool.and_eq_true, Bool.not_eq_true'] at ha
  simp [step, ha.1.1, ha.1.2, ha.2, hr, hi, hu]

/-- In a tick the spec does not refuse, `rst` resets the engine. -/
theorem step_of_rst {s : State} (ha : s.admissible = true) (hr : s.rst = true) :
    step s = .next s.resetTick := by
  simp only [State.admissible, Bool.and_eq_true, Bool.not_eq_true'] at ha
  simp [step, ha.1.1, ha.1.2, ha.2, hr]

end Sys2Proof.Machine
end

