-- ==== Sys2Proof/Laws/Bus.lean ====
section
/-! SUPPORT. What each bus operation adds to the history, and what it does to one bit of OE and DOUT while other
masters leave that bit alone. -/

namespace Sys2Proof.Machine

open Sys2Proof

/-! ### The history (R58) -/

/-- From `s` to `t` the history grew by events of tick `n`, and `es` are the engine's among them, newest first. -/
def AddsEvents (n : Nat) (s t : State) (es : List BusEvent) : Prop :=
  ∃ l, t.history = l ++ s.history ∧ (∀ e ∈ l, e.tick = n) ∧ l.filter (fun e => e.master == .engine) = es

theorem AddsEvents.of_eq {n : Nat} {s t : State} (h : t.history = s.history) : AddsEvents n s t [] :=
  ⟨[], h, by simp, rfl⟩

theorem AddsEvents.cons {n : Nat} {s t : State} {k : AccessKey} {v : GpioWord}
    (h : t.history = ⟨n, k, v, .engine⟩ :: s.history) : AddsEvents n s t [⟨n, k, v, .engine⟩] :=
  ⟨[⟨n, k, v, .engine⟩], h, by simp, by simp⟩

theorem AddsEvents.trans {n : Nat} {s t u : State} {es fs : List BusEvent} (h : AddsEvents n s t es)
    (g : AddsEvents n t u fs) : AddsEvents n s u (fs ++ es) := by
  obtain ⟨l, a, b, c⟩ := h
  obtain ⟨m, d, e, f⟩ := g
  refine ⟨m ++ l, by rw [d, a, List.append_assoc], fun x hx => ?_, by rw [List.filter_append, c, f]⟩
  rcases List.mem_append.1 hx with hx | hx
  · exact e x hx
  · exact b x hx

/-- What `newEngineEvents` picks out of a history that grew. -/
theorem AddsEvents.newEngineEvents_eq {n : Nat} {s t : State} {es : List BusEvent} (h : AddsEvents n s t es) :
    newEngineEvents s t = es := by
  obtain ⟨l, a, b, c⟩ := h
  simp [newEngineEvents, a, ← c]

/-- The engine's history after it (R58). -/
theorem AddsEvents.busHistory_eq {n : Nat} {s t : State} {es : List BusEvent} (h : AddsEvents n s t es) :
    t.busHistory = s.busHistory ++ es.reverse := by
  obtain ⟨l, a, b, c⟩ := h
  simp [State.busHistory, a, c]

variable (s : State)

theorem addsEvents_applyOthers (l : List OtherAccess) : AddsEvents s.tick s (l.foldl State.applyOther s) [] := by
  induction l generalizing s with
  | nil => exact .of_eq rfl
  | cons a l ih =>
    have h : AddsEvents s.tick s (s.applyOther a) [] := by
      unfold State.applyOther
      split <;> first | exact .of_eq rfl | exact ⟨[_], rfl, by simp, by simp⟩
    have g := ih (s.applyOther a)
    rw [State.applyOther_tick] at g
    simpa using h.trans g

theorem addsEvents_othersBefore : AddsEvents s.tick s s.othersBefore [] := addsEvents_applyOthers s _

theorem addsEvents_endTick : AddsEvents s.tick s s.endTick [] :=
  (addsEvents_applyOthers s _).trans (AddsEvents.of_eq rfl)

theorem addsEvents_engineOeRd :
    AddsEvents s.tick s s.engineOeRd.2 [⟨s.tick, readKey s.cfg.offOe, s.othersBefore.oe, .engine⟩] :=
  (addsEvents_othersBefore s).trans (.cons (by simp [State.engineOeRd, State.oeRead]))

theorem addsEvents_afterRead :
    AddsEvents s.tick s s.afterRead [⟨s.tick, readKey s.cfg.offDatain, s.datainWord, .engine⟩] :=
  (addsEvents_othersBefore s).trans (.cons rfl)

theorem addsEvents_engineOeWr (v : GpioWord) :
    AddsEvents s.tick s (s.engineOeWr v) [⟨s.tick, writeKey s.cfg.offOe, v, .engine⟩] :=
  (addsEvents_othersBefore s).trans (.cons (by simp [State.engineOeWr, State.oeWrite]))

theorem addsEvents_engineClrWr (v : GpioWord) :
    AddsEvents s.tick s (s.engineClrWr v) [⟨s.tick, writeKey s.cfg.offClr, v, .engine⟩] :=
  (addsEvents_othersBefore s).trans (.cons (by simp [State.engineClrWr, State.clrWrite]))

theorem addsEvents_engineSetWr (v : GpioWord) :
    AddsEvents s.tick s (s.engineSetWr v) [⟨s.tick, writeKey s.cfg.offSet, v, .engine⟩] :=
  (addsEvents_othersBefore s).trans (.cons (by simp [State.engineSetWr, State.setWrite]))

/-- SETDIR.OUT writes back the value its read returned, with bit PIN cleared (R86). -/
theorem addsEvents_setDirOut :
    AddsEvents s.tick s s.setDirOut [⟨s.tick, writeKey s.cfg.offOe, s.othersBefore.oe &&& ~~~s.cfg.mask, .engine⟩,
      ⟨s.tick, readKey s.cfg.offOe, s.othersBefore.oe, .engine⟩] := by
  have h := addsEvents_engineOeWr s.engineOeRd.2 (s.othersBefore.oe &&& ~~~s.cfg.mask)
  rw [show s.engineOeRd.2.tick = s.tick by simp [State.engineOeRd, State.oeRead],
    show s.engineOeRd.2.cfg = s.cfg by simp [State.engineOeRd, State.oeRead]] at h
  exact (addsEvents_engineOeRd s).trans h

/-- SETDIR.IN writes back the value its read returned, with bit PIN set (R87). -/
theorem addsEvents_setDirIn :
    AddsEvents s.tick s s.setDirIn [⟨s.tick, writeKey s.cfg.offOe, s.othersBefore.oe ||| s.cfg.mask, .engine⟩,
      ⟨s.tick, readKey s.cfg.offOe, s.othersBefore.oe, .engine⟩] := by
  have h := addsEvents_engineOeWr s.engineOeRd.2 (s.othersBefore.oe ||| s.cfg.mask)
  rw [show s.engineOeRd.2.tick = s.tick by simp [State.engineOeRd, State.oeRead],
    show s.engineOeRd.2.cfg = s.cfg by simp [State.engineOeRd, State.oeRead]] at h
  exact (addsEvents_engineOeRd s).trans h

/-! ### Other masters' accesses do not read the engine registers -/

theorem State.applyOther_setSr (a : OtherAccess) (v : Frame) : (s.setSr v).applyOther a = (s.applyOther a).setSr v := by
  unfold State.applyOther
  rw [State.setSr_cfg]
  generalize decodeAccess s.cfg a.key a.data = d
  cases d with
  | instr i => cases i <;> rfl
  | reject r => cases r <;> rfl

theorem State.applyOther_setData (a : OtherAccess) (v : Frame) :
    (s.setData v).applyOther a = (s.applyOther a).setData v := by
  unfold State.applyOther
  rw [State.setData_cfg]
  generalize decodeAccess s.cfg a.key a.data = d
  cases d with
  | instr i => cases i <;> rfl
  | reject r => cases r <;> rfl

@[simp] theorem State.othersBefore_setSr (v : Frame) : (s.setSr v).othersBefore = s.othersBefore.setSr v := by
  suffices h : ∀ (l : List OtherAccess) (u : State),
      l.foldl State.applyOther (u.setSr v) = (l.foldl State.applyOther u).setSr v from h _ s
  intro l
  induction l with
  | nil => exact fun _ => rfl
  | cons a l ih => exact fun u => by rw [List.foldl_cons, List.foldl_cons, State.applyOther_setSr, ih]

@[simp] theorem State.othersBefore_setData (v : Frame) : (s.setData v).othersBefore = s.othersBefore.setData v := by
  suffices h : ∀ (l : List OtherAccess) (u : State),
      l.foldl State.applyOther (u.setData v) = (l.foldl State.applyOther u).setData v from h _ s
  intro l
  induction l with
  | nil => exact fun _ => rfl
  | cons a l ih => exact fun u => by rw [List.foldl_cons, List.foldl_cons, State.applyOther_setData, ih]

/-- The three accesses of the start of an acquisition (R98). -/
theorem addsEvents_startAcquisition :
    AddsEvents s.tick s s.startAcquisition
      [⟨s.tick, writeKey s.cfg.offClr, s.cfg.mask, .engine⟩,
       ⟨s.tick, writeKey s.cfg.offOe, s.othersBefore.oe &&& ~~~s.cfg.mask, .engine⟩,
       ⟨s.tick, readKey s.cfg.offOe, s.othersBefore.oe, .engine⟩] := by
  have h := addsEvents_engineClrWr ((s.setSr 0#40).setData 0#40).setDirOut ((s.setSr 0#40).setData 0#40).setDirOut.cfg.mask
  have h3 := h.trans (AddsEvents.of_eq (t := s.startAcquisition) rfl)
  simp only [State.setDirOut_tick, State.setDirOut_cfg] at h3
  have h1 := addsEvents_setDirOut ((s.setSr 0#40).setData 0#40)
  rw [State.othersBefore_setData, State.othersBefore_setSr] at h1
  exact ((AddsEvents.of_eq rfl).trans h1).trans h3

/-! ### One bit of the bank -/

/-- Bit `n` of OE and of DOUT. -/
def State.bankBit (s : State) (n : Nat) : Bool × Bool := (s.oe.getLsbD n, s.dout.getLsbD n)

/-- No other master's access of this tick changes bit `n` of OE or DOUT. -/
def State.othersKeepBit (s : State) (n : Nat) : Prop :=
  ∀ a ∈ s.others, a.tick = s.tick → ∀ u : State, u.cfg = s.cfg → (u.applyOther a).bankBit n = u.bankBit n

variable {s} {n : Nat}

theorem State.othersKeepBit_congr {t : State} (hc : t.cfg = s.cfg) (ht : t.tick = s.tick)
    (ho : t.others = s.others) (h : s.othersKeepBit n) : t.othersKeepBit n := by
  unfold State.othersKeepBit; rw [hc, ht, ho]; exact h

theorem State.othersKeepBit_of_quiet (h : s.quiet = true) : s.othersKeepBit n := fun a ha ht => by
  simp only [State.quiet, List.all_eq_true, bne_iff_ne] at h
  exact absurd ht (h a ha)

theorem State.applyOthers_bankBit (h : s.othersKeepBit n) (l : List OtherAccess)
    (hl : ∀ a ∈ l, a ∈ s.others ∧ a.tick = s.tick) (u : State) (hu : u.cfg = s.cfg) :
    (l.foldl State.applyOther u).bankBit n = u.bankBit n := by
  induction l generalizing u with
  | nil => rfl
  | cons a l ih =>
    rw [List.foldl_cons, ih (fun b hb => hl b (List.mem_cons_of_mem _ hb)) _ (by simp [hu])]
    exact h a (hl a List.mem_cons_self).1 (hl a List.mem_cons_self).2 u hu

theorem State.othersBefore_bankBit (h : s.othersKeepBit n) : s.othersBefore.bankBit n = s.bankBit n :=
  State.applyOthers_bankBit h _ (fun a ha => by simp at ha; tauto) _ rfl

theorem State.endTick_bankBit (h : s.othersKeepBit n) : s.endTick.bankBit n = s.bankBit n :=
  State.applyOthers_bankBit h _ (fun a ha => by simp at ha; tauto) _ rfl

theorem State.afterRead_bankBit (h : s.othersKeepBit n) : s.afterRead.bankBit n = s.bankBit n := by
  rw [← State.othersBefore_bankBit h]; rfl

theorem State.engineOeRd_bankBit (h : s.othersKeepBit n) : s.engineOeRd.2.bankBit n = s.bankBit n := by
  rw [← State.othersBefore_bankBit h]; rfl

theorem State.engineOeWr_bankBit (h : s.othersKeepBit n) (v : GpioWord) :
    (s.engineOeWr v).bankBit n = (v.getLsbD n, (s.bankBit n).2) := by
  rw [← State.othersBefore_bankBit h]; rfl

/-- Clearing the bits of `v` (R84, R86). -/
theorem getLsbD_and_not (u v : GpioWord) (n : Nat) : (u &&& ~~~v).getLsbD n = (u.getLsbD n && !v.getLsbD n) := by
  by_cases h : n < 32
  · simp [h]
  · rw [BitVec.getLsbD_of_ge _ _ (by omega), BitVec.getLsbD_of_ge u _ (by omega), Bool.false_and]

theorem State.engineClrWr_bankBit (h : s.othersKeepBit n) (v : GpioWord) :
    (s.engineClrWr v).bankBit n = ((s.bankBit n).1, (s.bankBit n).2 && !v.getLsbD n) := by
  rw [← State.othersBefore_bankBit h]
  show (_, (s.othersBefore.dout &&& ~~~v).getLsbD n) = _
  rw [getLsbD_and_not]; rfl

theorem State.engineSetWr_bankBit (h : s.othersKeepBit n) (v : GpioWord) :
    (s.engineSetWr v).bankBit n = ((s.bankBit n).1, (s.bankBit n).2 || v.getLsbD n) := by
  rw [← State.othersBefore_bankBit h]
  show (_, (s.othersBefore.dout ||| v).getLsbD n) = _
  rw [BitVec.getLsbD_or]; rfl

theorem State.setDirOut_bankBit (h : s.othersKeepBit n) :
    s.setDirOut.bankBit n = ((s.bankBit n).1 && !s.cfg.mask.getLsbD n, (s.bankBit n).2) := by
  unfold State.setDirOut
  rw [State.engineOeWr_bankBit (State.othersKeepBit_congr (by simp [State.engineOeRd, State.oeRead])
    (by simp [State.engineOeRd, State.oeRead]) (by simp [State.engineOeRd, State.oeRead]) h),
    State.engineOeRd_bankBit h, getLsbD_and_not,
    show s.engineOeRd.1.getLsbD n = (s.bankBit n).1 by rw [← State.othersBefore_bankBit h]; rfl]

theorem State.setDirIn_bankBit (h : s.othersKeepBit n) :
    s.setDirIn.bankBit n = ((s.bankBit n).1 || s.cfg.mask.getLsbD n, (s.bankBit n).2) := by
  unfold State.setDirIn
  rw [State.engineOeWr_bankBit (State.othersKeepBit_congr (by simp [State.engineOeRd, State.oeRead])
    (by simp [State.engineOeRd, State.oeRead]) (by simp [State.engineOeRd, State.oeRead]) h),
    State.engineOeRd_bankBit h, BitVec.getLsbD_or,
    show s.engineOeRd.1.getLsbD n = (s.bankBit n).1 by rw [← State.othersBefore_bankBit h]; rfl]

theorem State.startAcquisition_bankBit (h : s.othersKeepBit n) :
    s.startAcquisition.bankBit n =
      ((s.bankBit n).1 && !s.cfg.mask.getLsbD n, (s.bankBit n).2 && !s.cfg.mask.getLsbD n) := by
  have h1 : ((s.setSr 0#40).setData 0#40).othersKeepBit n := State.othersKeepBit_congr rfl rfl rfl h
  have h2 := State.engineClrWr_bankBit
    (State.othersKeepBit_congr (s := (s.setSr 0#40).setData 0#40) (t := ((s.setSr 0#40).setData 0#40).setDirOut)
      (by simp) (by simp) (by simp) h1) ((s.setSr 0#40).setData 0#40).setDirOut.cfg.mask
  rw [State.setDirOut_bankBit h1] at h2
  have e : s.startAcquisition = (State.engineClrWr ((s.setSr 0#40).setData 0#40).setDirOut.cfg.mask
    ((s.setSr 0#40).setData 0#40).setDirOut).goto (plainWord 0x1#4) := rfl
  rw [e]
  simp only [State.setDirOut_cfg] at h2 ⊢
  exact h2

/-! ### What other masters leave alone -/

theorem State.othersKeepBit_of_spare (h : s.othersSpare n = true) : s.othersKeepBit n := fun a ha ht u hu => by
  have h := List.all_eq_true.1 h a ha
  simp only [ht, bne_self_eq_false, Bool.false_or, Bool.not_eq_true', OtherAccess.touches] at h
  unfold State.applyOther
  rw [hu]
  generalize decodeAccess s.cfg a.key a.data = d at h ⊢
  cases d with
  | reject r => cases r <;> rfl
  | instr i =>
    cases i <;> first | rfl | skip
    case oeWr => exact absurd h (by simp)
    case clrWr v =>
      show (_, (u.dout &&& ~~~v).getLsbD n) = _
      rw [getLsbD_and_not, show v.getLsbD n = false from h, Bool.not_false, Bool.and_true]; rfl
    case setWr v =>
      show (_, (u.dout ||| v).getLsbD n) = _
      rw [BitVec.getLsbD_or, show v.getLsbD n = false from h, Bool.or_false]; rfl

/-- Another master's access that is no OE_WR leaves OE. -/
theorem State.applyOther_oe {a : OtherAccess}
    (h : AccessKey.isWrite a.key = false ∨ AccessKey.off a.key ≠ s.cfg.offOe) : (s.applyOther a).oe = s.oe := by
  unfold State.applyOther
  split <;> try rfl
  rename_i he
  exfalso
  unfold decodeAccess at he
  rcases h with h | h <;> simp only [h, Bool.false_eq_true, if_false] at he <;> split at he <;>
    (try split at he) <;> (try split at he) <;> cases he

/-- The exclusivity premise spares bit PIN (R166). -/
theorem State.othersSpare_of_exclusive (h : s.exclusive = true) : s.othersSpare s.cfg.pin = true := by
  refine List.all_eq_true.2 fun a ha => ?_
  have h := List.all_eq_true.1 h a ha
  by_cases ht : a.tick = s.tick
  · simp only [ht, bne_self_eq_false, Bool.false_or, Bool.and_eq_true, Bool.or_eq_true, bne_iff_ne, beq_iff_eq,
      Bool.not_eq_true'] at h ⊢
    obtain ⟨h1, h2⟩ := h
    unfold OtherAccess.touches
    unfold OtherAccess.drivesPin at h2
    split <;> rename_i he
    · exfalso
      unfold decodeAccess at he
      rcases h1 with h1 | h1 <;> simp only [h1, Bool.false_eq_true, if_false] at he <;> split at he <;>
        (try split at he) <;> (try split at he) <;> cases he
    · rw [he] at h2; exact h2
    · rw [he] at h2; exact h2
    · rfl
  · simp [ht]

theorem State.exclusive_congr {t : State} (hc : t.cfg = s.cfg) (ht : t.tick = s.tick) (ho : t.others = s.others) :
    t.exclusive = s.exclusive := by
  simp [State.exclusive, hc, ht, ho]

theorem State.othersBefore_oe_of_exclusive (h : s.exclusive = true) : s.othersBefore.oe = s.oe := by
  suffices g : ∀ (l : List OtherAccess) (u : State), u.cfg = s.cfg → (∀ a ∈ l, a ∈ s.others ∧ a.tick = s.tick) →
      (l.foldl State.applyOther u).oe = u.oe from g _ s rfl fun a ha => by simp at ha; tauto
  intro l
  induction l with
  | nil => exact fun _ _ _ => rfl
  | cons a l ih =>
    intro u hu hl
    have ha := List.all_eq_true.1 h a (hl a List.mem_cons_self).1
    simp only [(hl a List.mem_cons_self).2, bne_self_eq_false, Bool.false_or, Bool.and_eq_true, Bool.or_eq_true,
      bne_iff_ne, beq_iff_eq] at ha
    rw [List.foldl_cons, ih _ (by simp [hu]) fun b hb => hl b (List.mem_cons_of_mem _ hb)]
    exact State.applyOther_oe (by rw [hu]; exact ha.1)

theorem State.engineOeWr_oe (v : GpioWord) : (s.engineOeWr v).oe = v := rfl
theorem State.engineClrWr_oe (v : GpioWord) : (s.engineClrWr v).oe = s.othersBefore.oe := rfl

theorem State.setDirOut_oe : s.setDirOut.oe = s.othersBefore.oe &&& ~~~s.cfg.mask := State.engineOeWr_oe _

theorem State.startAcquisition_oe_of_exclusive (h : s.exclusive = true) :
    s.startAcquisition.oe = s.oe &&& ~~~s.cfg.mask := by
  have h2 : (((s.setSr 0#40).setData 0#40).setDirOut).exclusive = true :=
    (State.exclusive_congr (by simp) (by simp) (by simp)).trans h
  rw [State.startAcquisition, State.goto_oe, State.driveLow, State.engineClrWr_oe, State.othersBefore_oe_of_exclusive h2,
    State.setDirOut_oe, State.othersBefore_setData, State.othersBefore_setSr, State.setData_oe, State.setSr_oe,
    State.othersBefore_oe_of_exclusive h, State.setData_cfg, State.setSr_cfg]

/-- What the start of an acquisition makes of the machine (R98). -/
theorem State.startAcquisition_startsFrom : StartsFrom s s.startAcquisition := by
  have hs : s.startAcquisition.stateReg = 0x1000#16 := rfl
  have hb : ∀ n, s.othersSpare n = true → _ := fun n h =>
    Prod.mk.inj (State.startAcquisition_bankBit (State.othersKeepBit_of_spare h))
  refine ⟨hs, rfl, ?_, ?_, ?_, ?_, ?_, ?_, ?_, ?_, ?_, ?_, ?_, ?_, (addsEvents_startAcquisition s).busHistory_eq, hb,
    fun h => ⟨State.othersBefore_oe_of_exclusive h, ?_, fun hw => ?_⟩, fun h => ?_⟩
  case refine_3 => rw [State.busy, hs]; decide
  case refine_4 => rw [State.done, hs]; decide
  case refine_5 => rw [State.valid, hs]; decide
  case refine_13 => exact State.startAcquisition_oe_of_exclusive h
  case refine_14 =>
    have := hb _ (State.othersSpare_of_exclusive h)
    rw [Cfg.mask_getLsbD hw] at this
    simpa using this
  all_goals try simp [State.startAcquisition]
  have hq : ((s.setSr 0#40).setData 0#40).quiet = true := h
  have hq2 : (((s.setSr 0#40).setData 0#40).setDirOut).quiet = true :=
    (State.quiet_congr (by simp) (by simp)).trans h
  rw [State.driveLow_of_quiet _ hq2, State.setDirOut_of_quiet _ hq]
  simp [writeKey, readKey]

end Sys2Proof.Machine
end

