-- ==== Sys2Proof/Laws/PerInstr.lean ====
section
/-! SUPPORT. Statements made of every instruction as syntax, one lemma per constructor. -/

namespace Sys2Proof.Laws.TableRow

open Sys2Proof

/-- A row of spec/opcode_table.json: its mask, its match and its mnemonic. -/
structure Row where
  mask : Nat
  pattern : Nat
  mnemonic : String
  deriving DecidableEq, Repr

/-- The row of an instruction, as the table writes it. -/
def row : Instr → Row
  | .idle => ⟨0xFFFF, 0x0000, "IDLE"⟩
  | .driveStartLow => ⟨0xFFFF, 0x1000, "DRIVE_START_LOW"⟩
  | .driveStartHigh => ⟨0xFFFF, 0x2000, "DRIVE_START_HIGH"⟩
  | .awaitAckLow => ⟨0xFFFF, 0x3000, "AWAIT_ACK_LOW"⟩
  | .awaitAckHigh => ⟨0xFFFF, 0x4000, "AWAIT_ACK_HIGH"⟩
  | .awaitAckEnd => ⟨0xFFFF, 0x5000, "AWAIT_ACK_END"⟩
  | .readBitRise _ _ => ⟨0xFFC0, 0x6000, "READ_BIT.RISE"⟩
  | .readBitSettle _ _ => ⟨0xFFC0, 0x6040, "READ_BIT.SETTLE"⟩
  | .readBitFall _ _ => ⟨0xFFC0, 0x6080, "READ_BIT.FALL"⟩
  | .verifyChecksum => ⟨0xFFFF, 0x7000, "VERIFY_CHECKSUM"⟩
  | .success => ⟨0xFFFF, 0x8000, "SUCCESS"⟩
  | .failedNoResponse => ⟨0xFFFF, 0x9200, "FAILED.NO_RESPONSE"⟩
  | .failedStuckLow => ⟨0xFFFF, 0x9400, "FAILED.STUCK_LOW"⟩
  | .failedStuckHigh => ⟨0xFFFF, 0x9600, "FAILED.STUCK_HIGH"⟩
  | .failedBitTimeout _ _ => ⟨0xFFC0, 0x9800, "FAILED.BIT_TIMEOUT"⟩
  | .failedBitStuckHigh _ _ => ⟨0xFFC0, 0x9A00, "FAILED.BIT_STUCK_HIGH"⟩
  | .failedChecksumMismatch => ⟨0xFFFF, 0x9C00, "FAILED.CHECKSUM_MISMATCH"⟩
  | .oeRd => ⟨0x1FFF, 0x0134, "OE_RD"⟩
  | .datainRd => ⟨0x1FFF, 0x0138, "DATAIN_RD"⟩
  | .oeWr _ => ⟨0x1FFF, 0x1134, "OE_WR"⟩
  | .clrWr _ => ⟨0x1FFF, 0x1190, "CLR_WR"⟩
  | .setWr _ => ⟨0x1FFF, 0x1194, "SET_WR"⟩
  | .acquire => ⟨0x1, 0x1, "ACQUIRE"⟩

/-- The number of a presented word: a state word, an access key or a host bit. -/
def number : Presented → Nat
  | .sw w => w.toNat
  | .bk key _ => key.toNat
  | .hc bit => bit.toNat

/-- At the default offsets, the word of a well-formed instruction matches its row of the table under the row's
mask, and the instruction carries the row's mnemonic. -/
def Statement (i : Instr) : Prop :=
  i.wf = true → number (encode Cfg.default i) &&& (row i).mask = (row i).pattern ∧ i.mnemonic = (row i).mnemonic

theorem idle : Statement .idle := fun _ => by decide
theorem driveStartLow : Statement .driveStartLow := fun _ => by decide
theorem driveStartHigh : Statement .driveStartHigh := fun _ => by decide
theorem awaitAckLow : Statement .awaitAckLow := fun _ => by decide
theorem awaitAckHigh : Statement .awaitAckHigh := fun _ => by decide
theorem awaitAckEnd : Statement .awaitAckEnd := fun _ => by decide
theorem readBitRise (b i : Index) : Statement (.readBitRise b i) := by
  revert b i; unfold Statement; decide
theorem readBitSettle (b i : Index) : Statement (.readBitSettle b i) := by
  revert b i; unfold Statement; decide
theorem readBitFall (b i : Index) : Statement (.readBitFall b i) := by
  revert b i; unfold Statement; decide
theorem verifyChecksum : Statement .verifyChecksum := fun _ => by decide
theorem success : Statement .success := fun _ => by decide
theorem failedNoResponse : Statement .failedNoResponse := fun _ => by decide
theorem failedStuckLow : Statement .failedStuckLow := fun _ => by decide
theorem failedStuckHigh : Statement .failedStuckHigh := fun _ => by decide
theorem failedBitTimeout (b i : Index) : Statement (.failedBitTimeout b i) := by
  revert b i; unfold Statement; decide
theorem failedBitStuckHigh (b i : Index) : Statement (.failedBitStuckHigh b i) := by
  revert b i; unfold Statement; decide
theorem failedChecksumMismatch : Statement .failedChecksumMismatch := fun _ => by decide
theorem oeRd : Statement .oeRd := fun _ => by decide
theorem datainRd : Statement .datainRd := fun _ => by decide
theorem oeWr (v : GpioWord) : Statement (.oeWr v) := fun _ => ⟨by simp only [encode, number, row]; decide, rfl⟩
theorem clrWr (v : GpioWord) : Statement (.clrWr v) := fun _ => ⟨by simp only [encode, number, row]; decide, rfl⟩
theorem setWr (v : GpioWord) : Statement (.setWr v) := fun _ => ⟨by simp only [encode, number, row]; decide, rfl⟩
theorem acquire : Statement .acquire := fun _ => by decide

end Sys2Proof.Laws.TableRow
end

