-- ==== Sys2Proof/Tests/Slice0.lean ====
section
/-! SUPPORT. The model's own tests: the WellFormed smoke tests, words written out from 30_encoding.md, single steps from
95_test_vectors.md, and a witness for the hypotheses of every obligation that has any. -/

namespace Sys2Proof.Tests

open Sys2Proof Sys2Proof.Machine

/-! ### Helpers -/

/-- The engine in a state word with a counter, otherwise as after reset. -/
def engineAt (w : StateWord) (cnt : Nat) : State := { State.reset with stateReg := w, cnt := cnt }

/-- A line that has this level from the current tick on. -/
def seeing (s : State) (level : Bool) : State := { s with trace := ⟨s.tick, [Segment.line s.cfg level 1]⟩ }

/-- `acq_req` = 1 in the current tick. -/
def asked (s : State) : State := { s with host := ⟨s.tick, .acquire⟩ :: s.host }

/-- `rst` = 1 in the current tick. -/
def underReset (s : State) : State := { s with host := ⟨s.tick, .reset⟩ :: s.host }

/-- What a next state shows; nothing of a fault or a refusal. -/
def after {α : Type} (o : Host.Outcome State Fault Refusal) (f : State → α) : Option α :=
  match o with
  | .next t => some (f t)
  | .fault _ => none
  | .refused _ => none

/-- The refusal of an outcome. -/
def refusal : Host.Outcome State Fault Refusal → Option Refusal
  | .refused r => some r
  | .next _ => none
  | .fault _ => none

/-- What an outcome without a refusal reached. -/
theorem next_of_after {α : Type} {o : Host.Outcome State Fault Refusal} {f : State → α} {a : α} (h : after o f = some a) :
    ∃ t, o = .next t ∧ f t = a := by
  cases o with
  | next t => exact ⟨t, rfl, by simpa [after] using h⟩
  | fault r => simp [after] at h
  | refused r => simp [after] at h

/-! ### WellFormed: one ill-formed term for each check -/

theorem test_wf_readBitRise : (Instr.readBitRise 4#3 7#3).wf = true ∧ (Instr.readBitRise 5#3 0#3).wf = false ∧ (Instr.readBitRise 7#3 7#3).wf = false := by
  decide
theorem test_wf_readBitSettle : (Instr.readBitSettle 4#3 7#3).wf = true ∧ (Instr.readBitSettle 5#3 0#3).wf = false ∧ (Instr.readBitSettle 7#3 7#3).wf = false := by
  decide
theorem test_wf_readBitFall : (Instr.readBitFall 4#3 7#3).wf = true ∧ (Instr.readBitFall 5#3 0#3).wf = false ∧ (Instr.readBitFall 7#3 7#3).wf = false := by
  decide
theorem test_wf_failedBitTimeout : (Instr.failedBitTimeout 4#3 7#3).wf = true ∧ (Instr.failedBitTimeout 5#3 0#3).wf = false ∧ (Instr.failedBitTimeout 7#3 7#3).wf = false := by
  decide
theorem test_wf_failedBitStuckHigh : (Instr.failedBitStuckHigh 4#3 7#3).wf = true ∧ (Instr.failedBitStuckHigh 5#3 0#3).wf = false ∧ (Instr.failedBitStuckHigh 7#3 7#3).wf = false := by
  decide
theorem test_wf_default : Cfg.default.wf = true := by decide
theorem test_cfg_pin_range : ({ Cfg.default with pin := 32, mask := 0#32 } : Cfg).pinOk = false ∧ ({ Cfg.default with pin := 32, mask := 0#32 } : Cfg).wf = false := by
  decide
theorem test_cfg_mask_is_not_one_hot : ({ Cfg.default with mask := 0x60000000#32 } : Cfg).pinOk = false ∧ ({ Cfg.default with mask := 0x60000000#32 } : Cfg).wf = false := by
  decide
theorem test_cfg_mask_at_another_pin : ({ Cfg.default with mask := 0x20000000#32 } : Cfg).pinOk = false ∧ ({ Cfg.default with mask := 0x20000000#32 } : Cfg).wf = false := by
  decide
theorem test_cfg_offset_misaligned : ({ Cfg.default with offSet := 0x195#12 } : Cfg).offsetsAligned = false ∧ ({ Cfg.default with offSet := 0x195#12 } : Cfg).wf = false := by
  decide
theorem test_cfg_offsets_coincide : ({ Cfg.default with offSet := 0x190#12 } : Cfg).offsetsDistinct = false ∧ ({ Cfg.default with offSet := 0x190#12 } : Cfg).wf = false := by
  decide
theorem test_cfg_base_misaligned : ({ Cfg.default with gpioBase := 2 } : Cfg).busOk = false ∧ ({ Cfg.default with gpioBase := 2 } : Cfg).wf = false := by
  decide
theorem test_cfg_register_width : ({ Cfg.default with regW := 16 } : Cfg).busOk = false ∧ ({ Cfg.default with regW := 16 } : Cfg).wf = false := by
  decide
theorem test_cfg_tick_length : ({ Cfg.default with tickUs := 2 } : Cfg).tickOk = false ∧ ({ Cfg.default with tickUs := 2 } : Cfg).wf = false := by
  decide
theorem test_cfg_no_clock : ({ Cfg.default with clkPerTick := 0 } : Cfg).tickOk = false ∧ ({ Cfg.default with clkPerTick := 0 } : Cfg).wf = false := by
  decide
theorem test_cfg_start_low_17999 : ({ Cfg.default with tStartLow := 17999 } : Cfg).startLowOk = false ∧ ({ Cfg.default with tStartLow := 17999 } : Cfg).wf = false := by
  decide
theorem test_cfg_start_low_2_16 : ({ Cfg.default with tStartLow := 65536, cntW := 17 } : Cfg).startLowOk = false ∧ ({ Cfg.default with tStartLow := 65536, cntW := 17 } : Cfg).wf = false := by
  decide
theorem test_cfg_start_high_19 : ({ Cfg.default with tStartHigh := 19 } : Cfg).startHighOk = false ∧ ({ Cfg.default with tStartHigh := 19 } : Cfg).wf = false := by
  decide
theorem test_cfg_start_high_41 : ({ Cfg.default with tStartHigh := 41 } : Cfg).startHighOk = false ∧ ({ Cfg.default with tStartHigh := 41 } : Cfg).wf = false := by
  decide
theorem test_cfg_poll_0 : ({ Cfg.default with pollBound := 0 } : Cfg).pollOk = false ∧ ({ Cfg.default with pollBound := 0 } : Cfg).wf = false := by
  decide
theorem test_cfg_poll_2_16 : ({ Cfg.default with pollBound := 65536, cntW := 17 } : Cfg).pollOk = false ∧ ({ Cfg.default with pollBound := 65536, cntW := 17 } : Cfg).wf = false := by
  decide
theorem test_cfg_settle_0 : ({ Cfg.default with tSettle := 0 } : Cfg).settleOk = false ∧ ({ Cfg.default with tSettle := 0 } : Cfg).wf = false := by
  decide
theorem test_cfg_settle_2_16 : ({ Cfg.default with tSettle := 65536, cntW := 17 } : Cfg).settleOk = false ∧ ({ Cfg.default with tSettle := 65536, cntW := 17 } : Cfg).wf = false := by
  decide
theorem test_cfg_frame_bytes : ({ Cfg.default with frameBytes := 4, frameBits := 32 } : Cfg).frameOk = false ∧ ({ Cfg.default with frameBytes := 4, frameBits := 32 } : Cfg).wf = false := by
  decide
theorem test_cfg_frame_bits : ({ Cfg.default with frameBits := 32 } : Cfg).frameOk = false ∧ ({ Cfg.default with frameBits := 32 } : Cfg).wf = false := by
  decide
theorem test_cfg_counter_width : ({ Cfg.default with cntW := 14 } : Cfg).cntOk = false ∧ ({ Cfg.default with cntW := 14 } : Cfg).wf = false := by
  decide
/-- The bounds themselves are legal. -/
theorem test_cfg_bounds :
    ({ Cfg.default with tStartHigh := 20, pollBound := 1, tSettle := 1, cntW := 15 } : Cfg).wf = true ∧
    ({ Cfg.default with tStartLow := 65535, tStartHigh := 40, pollBound := 65535, tSettle := 65535 } : Cfg).wf = true := by
  decide

/-! ### Decoding: words written out bit by bit from R63 to R66 (SW), R70 and R71 (BK), R74 (HC) -/

theorem test_decode_idle : decodeStateWord 0b0000000000000000#16 = .instr (.idle) := by decide
theorem test_decode_driveStartLow : decodeStateWord 0b0001000000000000#16 = .instr (.driveStartLow) := by decide
theorem test_decode_driveStartHigh : decodeStateWord 0b0010000000000000#16 = .instr (.driveStartHigh) := by decide
theorem test_decode_awaitAckLow : decodeStateWord 0b0011000000000000#16 = .instr (.awaitAckLow) := by decide
theorem test_decode_awaitAckHigh : decodeStateWord 0b0100000000000000#16 = .instr (.awaitAckHigh) := by decide
theorem test_decode_awaitAckEnd : decodeStateWord 0b0101000000000000#16 = .instr (.awaitAckEnd) := by decide
theorem test_decode_readBitRise : decodeStateWord 0b0110000000011110#16 = .instr (.readBitRise 3#3 6#3) := by decide
theorem test_decode_readBitSettle : decodeStateWord 0b0110000001001110#16 = .instr (.readBitSettle 1#3 6#3) := by decide
theorem test_decode_readBitFall : decodeStateWord 0b0110000010100111#16 = .instr (.readBitFall 4#3 7#3) := by decide
theorem test_decode_verifyChecksum : decodeStateWord 0b0111000000000000#16 = .instr (.verifyChecksum) := by decide
theorem test_decode_success : decodeStateWord 0b1000000000000000#16 = .instr (.success) := by decide
theorem test_decode_failedNoResponse : decodeStateWord 0b1001001000000000#16 = .instr (.failedNoResponse) := by decide
theorem test_decode_failedStuckLow : decodeStateWord 0b1001010000000000#16 = .instr (.failedStuckLow) := by decide
theorem test_decode_failedStuckHigh : decodeStateWord 0b1001011000000000#16 = .instr (.failedStuckHigh) := by decide
theorem test_decode_failedBitTimeout : decodeStateWord 0b1001100000001100#16 = .instr (.failedBitTimeout 1#3 4#3) := by decide
theorem test_decode_failedBitStuckHigh : decodeStateWord 0b1001101000010101#16 = .instr (.failedBitStuckHigh 2#3 5#3) := by decide
theorem test_decode_failedChecksumMismatch : decodeStateWord 0b1001110000000000#16 = .instr (.failedChecksumMismatch) := by decide
theorem test_decode_oeRd : decodeAccess Cfg.default 0b0000100110100#13 0xBFFFFFFF#32 = .instr (.oeRd) := by decide
theorem test_decode_datainRd : decodeAccess Cfg.default 0b0000100111000#13 0xBFFFFFFF#32 = .instr (.datainRd) := by decide
theorem test_decode_oeWr : decodeAccess Cfg.default 0b1000100110100#13 0xBFFFFFFF#32 = .instr (.oeWr 0xBFFFFFFF#32) := by decide
theorem test_decode_clrWr : decodeAccess Cfg.default 0b1000110010000#13 0xBFFFFFFF#32 = .instr (.clrWr 0xBFFFFFFF#32) := by decide
theorem test_decode_setWr : decodeAccess Cfg.default 0b1000110010100#13 0xBFFFFFFF#32 = .instr (.setWr 0xBFFFFFFF#32) := by decide
theorem test_decode_acquire : decodeHost 0b1#1 = .instr .acquire ∧ decodeHost 0b0#1 = .reject .noCommand := by decide
/-- V-EN1 to V-EN7. -/
theorem test_decode_vectors :
    decodeStateWord 0x0000#16 = .instr .idle ∧ decodeStateWord 0x6000#16 = .instr (.readBitRise 0#3 0#3) ∧
    decodeStateWord 0x60A7#16 = .instr (.readBitFall 4#3 7#3) ∧ decodeStateWord 0x604E#16 = .instr (.readBitSettle 1#3 6#3) ∧
    decodeStateWord 0x9A15#16 = .instr (.failedBitStuckHigh 2#3 5#3) ∧
    decodeStateWord 0x9800#16 = .instr (.failedBitTimeout 0#3 0#3) ∧
    decodeStateWord 0x9C00#16 = .instr .failedChecksumMismatch := by decide
/-- V-EN8 to V-EN12, and SW 0x1134 of R79. -/
theorem test_decode_rejects :
    decodeStateWord 0x60C0#16 = .reject .reservedPhase ∧ decodeStateWord 0x6028#16 = .reject .reservedByte ∧
    decodeStateWord 0x9000#16 = .reject .reservedReason ∧ decodeStateWord 0x9E00#16 = .reject .reservedReason ∧
    decodeStateWord 0x9201#16 = .reject .nonzeroField ∧ decodeStateWord 0x0100#16 = .reject .nonzeroField ∧
    decodeStateWord 0xA000#16 = .reject .reservedKind ∧ decodeStateWord 0xFFFF#16 = .reject .reservedKind ∧
    decodeStateWord 0x9828#16 = .reject .reservedByte ∧ decodeStateWord 0x1134#16 = .reject .nonzeroField := by decide
/-- V-EN15 and R72: reads of 0x13C and of the write-only registers, and a write of DATAIN. -/
theorem test_decode_undescribed_keys :
    decodeAccess Cfg.default 0x013C#13 0#32 = .reject .undescribedRead ∧
    decodeAccess Cfg.default 0x0194#13 0#32 = .reject .undescribedRead ∧
    decodeAccess Cfg.default 0x1138#13 0#32 = .reject .undescribedWrite := by decide
/-- The offsets are parameters (R71). -/
theorem test_decode_other_offsets :
    decodeAccess { Cfg.default with offOe := 0x010#12 } 0x1010#13 1#32 = .instr (.oeWr 1#32) ∧
    decodeAccess { Cfg.default with offOe := 0x010#12 } 0x1134#13 1#32 = .reject .undescribedWrite := by decide
theorem test_table_words :
    decodeTableWord 16 0x9A15 = some (.failedBitStuckHigh 2#3 5#3) ∧ decodeTableWord 16 0x0138 = some .datainRd ∧
    decodeTableWord 16 0x1194 = some (.setWr 0#32) ∧ decodeTableWord 8 1 = some .acquire ∧
    decodeTableWord 16 0x60C0 = none ∧ decodeTableWord 8 0 = none := by decide
/-- A presented word is the next tick's instruction: DRIVE_START_LOW counts, OE_WR reaches OE, ACQUIRE starts. -/
theorem test_presented_words :
    after (step (State.reset.withFetchWord 16 0x1000)) (fun t => (t.stateReg, t.cnt)) = some (0x1000#16, 1) ∧
    after (step (State.reset.withFetchWord 16 0x1134)) (fun t => t.oe) = some 0#32 ∧
    after (step (State.reset.withFetchWord 8 1)) (fun t => t.stateReg) = some 0x1000#16 := by decide

/-! ### Reset -/

/-- V-RS1 and V-RS2: the engine registers are cleared, the pin keeps driving low, no event. -/
theorem test_reset_tick :
    after (step (underReset { engineAt 0x1000#16 5000 with oe := 0xBFFFFFFF#32, sr := 7#40, data := 7#40 }))
      (fun t => ((t.stateReg, t.cnt, t.sr, t.data), t.oe, t.drives, t.history)) =
    some ((0x0000#16, 0, 0#40, 0#40), 0xBFFFFFFF#32, some false, []) := by decide
/-- P5, tick 5000: the run goes on to tick 5001, which is number 0 from the reset (R15). -/
theorem test_tick_numbers :
    after (step (underReset { engineAt 0x1000#16 4999 with tick := 5000, sinceReset := 5000 }))
      (fun t => (t.tick, t.sinceReset)) = some (5001, 0) ∧
    after (step { State.reset with tick := 5001 }) (fun t => (t.tick, t.sinceReset)) = some (5002, 1) := by decide
/-- V-SEQ10: `rst` wins over ACQUIRE. -/
theorem test_reset_wins_over_acquire :
    after (step (underReset (asked (engineAt 0x8000#16 0)))) (fun t => (t.stateReg, t.history)) =
    some (0x0000#16, []) := by decide

/-! ### Single steps -/

/-- V-SEQ1: the three start events, newest first. -/
theorem test_idle_acquire :
    after (step (asked State.reset)) (fun t => (t.stateReg, t.cnt, t.oe, t.dout, t.history)) =
    some (0x1000#16, 0, 0xBFFFFFFF#32, 0#32,
      [⟨0, 0x1190#13, 0x40000000#32, .engine⟩, ⟨0, 0x1134#13, 0xBFFFFFFF#32, .engine⟩,
       ⟨0, 0x0134#13, 0xFFFFFFFF#32, .engine⟩]) := by decide
/-- V-SEQ2. -/
theorem test_idle_waits : after (step State.reset) (fun t => (t.stateReg, t.history, t.tick)) = some (0x0000#16, [], 1) := by
  decide
/-- V-SEQ12 with OE = 0x12345678: other pins keep their direction. -/
theorem test_acquire_keeps_other_directions :
    after (exec .acquire { State.reset with oe := 0x12345678#32, dout := 0xFFFFFFFF#32 }) (fun t => (t.oe, t.dout)) =
    some (0x12345678#32, 0xBFFFFFFF#32) := by decide
/-- V-SEQ7: ACQUIRE is ignored while the engine is busy. -/
theorem test_acquire_while_busy :
    after (step (asked (engineAt 0x1000#16 1))) (fun t => (t.stateReg, t.cnt, t.history)) = some (0x1000#16, 2, []) := by
  decide
/-- V-SEQ3. -/
theorem test_driveStartLow_holds :
    after (step (engineAt 0x1000#16 17998)) (fun t => (t.stateReg, t.cnt, t.history)) = some (0x1000#16, 17999, []) := by
  decide
/-- V-SEQ4. -/
theorem test_driveStartLow_ends :
    after (step (engineAt 0x1000#16 17999)) (fun t => (t.stateReg, t.cnt, t.dout, t.history)) =
    some (0x2000#16, 0, 0x40000000#32, [⟨0, 0x1194#13, 0x40000000#32, .engine⟩]) := by decide
/-- V-SEQ5. -/
theorem test_driveStartHigh_ends :
    after (step { engineAt 0x2000#16 29 with oe := 0x12345678#32 }) (fun t => (t.stateReg, t.cnt, t.oe, t.history)) =
    some (0x3000#16, 0, 0x52345678#32,
      [⟨0, 0x1134#13, 0x52345678#32, .engine⟩, ⟨0, 0x0134#13, 0x12345678#32, .engine⟩]) := by decide
/-- V-SEQ6. -/
theorem test_driveStartHigh_holds :
    after (step (engineAt 0x2000#16 28)) (fun t => (t.stateReg, t.cnt, t.history)) = some (0x2000#16, 29, []) := by decide
/-- V-PL3: the target on the last permitted read. -/
theorem test_awaitAckLow_last_read :
    after (step (seeing (engineAt 0x3000#16 99) false)) (fun t => (t.stateReg, t.cnt)) = some (0x4000#16, 0) := by decide
/-- V-PL6. -/
theorem test_awaitAckLow_fails :
    after (step (seeing (engineAt 0x3000#16 99) true)) (fun t => (t.stateReg, t.cnt, t.history)) =
    some (0x9200#16, 0, [⟨0, 0x0138#13, 0x40000000#32, .engine⟩]) := by decide
/-- V-FL5: Line = 1 at once. -/
theorem test_awaitAckHigh_first_read :
    after (step (seeing (engineAt 0x4000#16 0) true)) (fun t => t.stateReg) = some 0x5000#16 := by decide
/-- V-FL2. -/
theorem test_awaitAckHigh_fails :
    after (step (seeing (engineAt 0x4000#16 99) false)) (fun t => t.stateReg) = some 0x9400#16 := by decide
/-- V-FL5: Line = 0 at once. -/
theorem test_awaitAckEnd_first_read :
    after (step (seeing (engineAt 0x5000#16 0) false)) (fun t => t.stateReg) = some 0x6000#16 := by decide
/-- V-FL3. -/
theorem test_awaitAckEnd_fails :
    after (step (seeing (engineAt 0x5000#16 99) true)) (fun t => t.stateReg) = some 0x9600#16 := by decide
/-- V-BIT9: level, not edge. -/
theorem test_readBitRise_detects :
    after (step (seeing (engineAt 0x6000#16 0) true)) (fun t => (t.stateReg, t.cnt)) = some (0x6040#16, 0) := by decide
/-- V-BIT8. -/
theorem test_readBitRise_fails :
    after (step (seeing (engineAt 0x6000#16 99) false)) (fun t => t.stateReg) = some 0x9800#16 := by decide
/-- V-BIT4: the sample enters SR[0]; SR shifts left. -/
theorem test_readBitSettle_samples :
    after (step { seeing (engineAt 0x604E#16 29) true with sr := 0b10#40 }) (fun t => (t.stateReg, t.cnt, t.sr)) =
    some (0x608E#16, 0, 0b101#40) := by decide
/-- V-BIT10: no read before the end of the delay. -/
theorem test_readBitSettle_waits :
    after (step (engineAt 0x6040#16 28)) (fun t => (t.stateReg, t.cnt, t.history)) = some (0x6040#16, 29, []) := by decide
/-- V-BIT12, V-BIT13 and the next bit of the same byte. -/
theorem test_readBitFall_moves_on :
    after (step (seeing (engineAt 0x6087#16 0) false)) (fun t => t.stateReg) = some 0x6008#16 ∧
    after (step (seeing (engineAt 0x60A7#16 0) false)) (fun t => t.stateReg) = some 0x7000#16 ∧
    after (step (seeing (engineAt 0x6080#16 0) false)) (fun t => t.stateReg) = some 0x6001#16 := by decide
/-- S7: BIT_STUCK_HIGH 2,5. -/
theorem test_readBitFall_fails :
    after (step (seeing (engineAt 0x6095#16 99) true)) (fun t => t.stateReg) = some 0x9A15#16 := by decide
/-- V-CK1, V-CK3, V-CK4, V-CK6, V-CK7 and V-CK8. -/
theorem test_verifyChecksum_holds :
    ([0x320018004A#40, 0x0000000000#40, 0xFFFFFFFFFC#40, 0x8080000000#40, 0x010203040A#40, 0x330017004A#40].all fun f =>
      after (step { engineAt 0x7000#16 0 with sr := f }) (fun t => (t.stateReg, t.data, t.valid)) ==
        some (0x8000#16, f, true)) = true := by decide
/-- V-CK2, V-CK5 and V-CK9. -/
theorem test_verifyChecksum_fails :
    ([0x320018004B#40, 0xFFFFFFFFFF#40, 0x32001800CA#40].all fun f =>
      after (step { engineAt 0x7000#16 0 with sr := f }) (fun t => (t.stateReg, t.data, t.valid)) ==
        some (0x9C00#16, 0#40, false)) = true := by decide
/-- V-SEQ8. -/
theorem test_success_acquire :
    after (step (asked { engineAt 0x8000#16 0 with sr := 0x320018004A#40, data := 0x320018004A#40 }))
      (fun t => (t.stateReg, t.sr, t.data, t.history.length)) = some (0x1000#16, 0#40, 0#40, 3) := by decide
theorem test_success_holds :
    after (step { engineAt 0x8000#16 0 with data := 0x320018004A#40 })
      (fun t => (t.stateReg, t.reading, t.done, t.busy, t.history)) =
    some (0x8000#16, some 0x320018004A#40, true, false, []) := by decide
/-- V-SEQ9: an ACQUIRE leaves every FAILED state. -/
theorem test_failed_acquire :
    ([0x9200#16, 0x9400#16, 0x9600#16, 0x980C#16, 0x9A15#16, 0x9C00#16].all fun w =>
      after (step (asked (engineAt w 0))) (fun t => (t.stateReg, t.history.length)) == some (0x1000#16, 3)) = true := by
  decide
/-- V-FL6: without one it is held. -/
theorem test_failed_holds :
    ([0x9200#16, 0x9400#16, 0x9600#16, 0x980C#16, 0x9A15#16, 0x9C00#16].all fun w =>
      after (step (engineAt w 0)) (fun t => (t.stateReg, t.valid, t.done, t.history)) == some (w, false, true, [])) = true := by
  decide

/-! ### Bus accesses and primitives -/

theorem test_oeRd :
    after (exec .oeRd { State.reset with oe := 0x12345678#32 }) (fun t => (t.oe, t.history)) =
    some (0x12345678#32, [⟨0, 0x0134#13, 0x12345678#32, .engine⟩]) := by decide
theorem test_datainRd :
    after (exec .datainRd (seeing State.reset true)) (fun t => (t.oe, t.history)) =
    some (0xFFFFFFFF#32, [⟨0, 0x0138#13, 0x40000000#32, .engine⟩]) := by decide
theorem test_oeWr : after (exec (.oeWr 0x52345678#32) State.reset) (fun t => (t.oe, t.dout)) = some (0x52345678#32, 0#32) := by
  decide
/-- V-RIO9. -/
theorem test_clrWr :
    after (exec (.clrWr 0x40000000#32) { State.reset with dout := 0xFFFFFFFF#32 }) (fun t => t.dout) = some 0xBFFFFFFF#32 := by
  decide
/-- V-RIO10. -/
theorem test_setWr : after (exec (.setWr 0x40000000#32) State.reset) (fun t => t.dout) = some 0x40000000#32 := by decide
/-- V-RIO1 to V-RIO5. -/
theorem test_setDirOut :
    ([0xFFFFFFFF#32, 0x00000000#32, 0x12345678#32, 0x40000000#32, 0xBFFFFFFF#32].map fun v =>
      ({ State.reset with oe := v } : State).setDirOut.oe) =
    [0xBFFFFFFF#32, 0x00000000#32, 0x12345678#32, 0x00000000#32, 0xBFFFFFFF#32] := by decide
/-- V-RIO6 to V-RIO8. -/
theorem test_setDirIn :
    ([0x12345678#32, 0xBFFFFFFF#32, 0x00000000#32].map fun v => ({ State.reset with oe := v } : State).setDirIn.oe) =
    [0x52345678#32, 0xFFFFFFFF#32, 0x40000000#32] := by decide
/-- V-RIO12. -/
theorem test_readLevel :
    ([0x40000000#32, 0xFFFFFFFF#32, 0xBFFFFFFF#32, 0x00000000#32].map fun v =>
      ({ State.reset with trace := ⟨0, [⟨v, 1⟩]⟩ } : State).readLevel.1) = [true, true, false, false] := by decide
/-- R78: segments count from the anchor and the last persists. -/
theorem test_trace :
    (let l : LineTrace := ⟨10, [⟨1#32, 2⟩, ⟨2#32, 3⟩, ⟨3#32, 1⟩]⟩
     [9, 10, 11, 12, 14, 15, 99].map l.wordAt) =
    [none, some 1#32, some 1#32, some 2#32, some 2#32, some 3#32, some 3#32] := by decide

/-! ### Other masters, and what is refused -/

/-- R60: another master's OE_WR falls before the engine's OE_RD, between it and the OE_WR, and after both. -/
theorem test_oe_race :
    ([0, 1, 2].map fun slot =>
      after (step { asked State.reset with others := [⟨0, slot, 0x1134#13, 0x0000FFFF#32⟩] }) (fun t => t.oe)) =
    [some 0x0000FFFF#32, some 0xBFFFFFFF#32, some 0x0000FFFF#32] := by decide
/-- The model's choice (log 10): a reset tick of a busy engine in which another master drives the pin is refused. -/
theorem test_refused_reset_tick :
    refusal (step (underReset { engineAt 0x1000#16 0 with others := [⟨0, 0, 0x1194#13, 0x40000000#32⟩] })) =
      some .otherDriverOnPin := by decide
theorem test_refusals :
    refusal (step (engineAt 0xA000#16 0)) = some .illegalStateWord ∧
    refusal (step { State.reset with cfg := { Cfg.default with tStartLow := 17999 } }) = some .illFormedConfig ∧
    refusal (step { State.reset with others := [⟨0, 0, 0x113C#13, 0#32⟩] }) = some .undescribedWrite ∧
    refusal (step { engineAt 0x1000#16 0 with others := [⟨0, 0, 0x1194#13, 0x40000000#32⟩] }) = some .otherDriverOnPin := by
  decide

/-! ### Text (R75, R76) -/

theorem test_instrText :
    (instrText (.readBitSettle 1#3 6#3)).toList = "READ_BIT.SETTLE 1,6".toList ∧
    (instrText (.failedBitTimeout 0#3 0#3)).toList = "FAILED.BIT_TIMEOUT 0,0".toList := by decide
theorem test_eventText :
    (BusEvent.text Cfg.default ⟨18000, 0x1194#13, 0x40000000#32, .engine⟩).map String.toList =
      some "18000: SET_WR 0x40000000".toList := by decide

/-! ### Witnesses: a concrete state and operands meeting each statement's hypotheses -/

/-- A schedule step used below: from reset, ACQUIRE at tick 0. -/
def started : State := asked State.reset

/-- The last tick of the last bit's settle delay, the line low from there on, with the first 39 samples of the frame
32 00 18 00 4A in SR. -/
def lastSample : State :=
  { engineAt 0x6067#16 29 with
    oe := 0xFFFFFFFF#32, sr := 0x320018004A#40 >>> 1, trace := ⟨0, [⟨0#32, 1⟩]⟩ }

theorem witness_decodeOfEncode : Cfg.default.wf = true ∧ (Instr.readBitFall 4#3 7#3).wf = true ∧ (Instr.readBitRise 0#3 0#3).wf = true := by
  decide
theorem witness_decodedStateWord :
    decodeStateWord 0x60A7#16 = .instr (.readBitFall 4#3 7#3) ∧ decodeStateWord 0x0000#16 = .instr .idle := by decide
theorem witness_illegalStateWords :
    0xA#4 ≤ (0xA000#16).extractLsb' 12 4 ∧
    ((0x60C0#16).extractLsb' 12 4 = 6#4 ∧ (0x60C0#16).extractLsb' 6 2 = 3#2) ∧
    ((0x6028#16).extractLsb' 12 4 = 6#4 ∧ 5#3 ≤ (0x6028#16).extractLsb' 3 3) ∧
    ((0x9000#16).extractLsb' 12 4 = 9#4 ∧ (0x9000#16).extractLsb' 9 3 = 0#3) ∧
    ((0x9E00#16).extractLsb' 12 4 = 9#4 ∧ (0x9E00#16).extractLsb' 9 3 = 7#3) ∧
    ((0x9828#16).extractLsb' 12 4 = 9#4 ∧ 5#3 ≤ (0x9828#16).extractLsb' 3 3) ∧
    (0x6100#16).extractLsb' 8 1 ≠ 0#1 ∧
    ((0x8200#16).extractLsb' 12 4 ≠ 9#4 ∧ (0x8200#16).extractLsb' 9 3 ≠ 0#3) ∧
    ((0x9840#16).extractLsb' 12 4 ≠ 6#4 ∧ (0x9840#16).extractLsb' 6 2 ≠ 0#2) ∧
    ((0x9201#16).extractLsb' 12 4 ≠ 6#4 ∧
      ¬ ((0x9201#16).extractLsb' 12 4 = 9#4 ∧ ((0x9201#16).extractLsb' 9 3 = 4#3 ∨ (0x9201#16).extractLsb' 9 3 = 5#3)) ∧
      (0x9201#16).extractLsb' 0 6 ≠ 0#6) ∧
    ((engineAt 0xA000#16 0).admissible = true ∧ (engineAt 0xA000#16 0).rst = false ∧
      decodeStateWord (engineAt 0xA000#16 0).stateReg = .reject .reservedKind) := by decide
theorem witness_accessKeys : Cfg.default.wf = true := by decide
theorem witness_stepRuns :
    started.admissible = true ∧ started.rst = false ∧ decodeStateWord started.stateReg = .instr .idle ∧
    (engineAt 0x60A7#16 3).admissible = true ∧ (engineAt 0x60A7#16 3).rst = false ∧
    decodeStateWord (engineAt 0x60A7#16 3).stateReg = .instr (.readBitFall 4#3 7#3) := by decide
theorem witness_presentedWord :
    State.reset.cfg.wf = true ∧ decodeTableWord 16 0x60A7 = some (.readBitFall 4#3 7#3) ∧
    encode State.reset.cfg (.readBitFall 4#3 7#3) = .sw 0x60A7#16 ∧
    decodeTableWord 8 1 = some .acquire ∧ decodeStateWord State.reset.stateReg = .instr .idle ∧
    decodeTableWord 16 0x1194 = some (.setWr 0#32) ∧ encode State.reset.cfg (.setWr 0#32) = .bk 0x1194#13 0#32 ∧
    after (exec (.setWr 0#32) State.reset.clearInputs) (fun u => u.dout) = some 0#32 := by decide
theorem witness_legalStates : ∃ i, (engineAt 0x9A15#16 0).admissible = true ∧ decodeStateWord (engineAt 0x9A15#16 0).stateReg = .instr i :=
  ⟨.failedBitStuckHigh 2#3 5#3, by decide⟩
theorem witness_illFormedConfiguration :
    ({ State.reset with cfg := { Cfg.default with tStartLow := 17999 } } : State).cfg.wf = false ∧
    31 < ({ Cfg.default with pin := 32 } : Cfg).pin ∧ ({ Cfg.default with tStartHigh := 41 } : Cfg).tStartHigh > 40 ∧
    2 ^ ({ Cfg.default with cntW := 14 } : Cfg).cntW ≤ Cfg.default.tStartLow := by decide
theorem witness_resetTick : (underReset started).admissible = true ∧ (underReset started).rst = true ∧ (underReset started).quiet = true := by
  decide
theorem witness_acquireStarts :
    State.reset.rst = false ∧ State.reset.stateReg.extractLsb' 12 4 = 0x0#4 ∧
    (engineAt 0x8000#16 0).stateReg.extractLsb' 12 4 = 0x8#4 ∧ (engineAt 0x9C00#16 0).stateReg.extractLsb' 12 4 = 0x9#4 ∧
    (underReset State.reset).rst = true ∧
    ((engineAt 0x1000#16 0).stateReg.extractLsb' 12 4 ≠ 0x0#4 ∧ (engineAt 0x1000#16 0).stateReg.extractLsb' 12 4 ≠ 0x8#4 ∧
      (engineAt 0x1000#16 0).stateReg.extractLsb' 12 4 ≠ 0x9#4) ∧ State.reset.quiet = true := by decide
theorem witness_acquireWhileBusy :
    (engineAt 0x1000#16 1).busy = true ∧ (engineAt 0x1000#16 1).rst = false ∧ (asked (engineAt 0x1000#16 1)).rst = false := by
  decide
theorem witness_restingStates :
    (Instr.failedBitTimeout 4#3 7#3).rests = true ∧ (Instr.failedBitTimeout 4#3 7#3).wf = true ∧
    (asked (engineAt 0x9827#16 0)).acqReq = true ∧ (engineAt 0x9827#16 0).acqReq = false := by decide
theorem witness_driveStartLow :
    ((engineAt 0x1000#16 17999).cnt + 1) % 2 ^ Cfg.default.cntW = Cfg.default.tStartLow ∧
    ((engineAt 0x1000#16 17998).cnt + 1) % 2 ^ Cfg.default.cntW ≠ Cfg.default.tStartLow := by decide
theorem witness_driveStartHigh :
    ((engineAt 0x2000#16 29).cnt + 1) % 2 ^ Cfg.default.cntW = Cfg.default.tStartHigh ∧
    ((engineAt 0x2000#16 28).cnt + 1) % 2 ^ Cfg.default.cntW ≠ Cfg.default.tStartHigh ∧ (engineAt 0x2000#16 29).quiet = true := by
  decide
/-- The three clauses of a poll, for the handshake states, READ_BIT.RISE and READ_BIT.FALL alike. -/
theorem witness_polls :
    (seeing (engineAt 0x3000#16 99) false).line = false ∧ (seeing (engineAt 0x4000#16 0) true).line = true ∧
    ((seeing (engineAt 0x3000#16 99) true).line ≠ false ∧ (99 + 1) % 2 ^ Cfg.default.cntW = Cfg.default.pollBound) ∧
    ((seeing (engineAt 0x3000#16 98) true).line ≠ false ∧ (98 + 1) % 2 ^ Cfg.default.cntW ≠ Cfg.default.pollBound) := by decide
theorem witness_bitIndices : 4 ≤ 4 ∧ 7 ≤ 7 ∧ 0 ≤ 4 ∧ 0 ≤ 7 := by decide
theorem witness_settle :
    ((engineAt 0x6040#16 29).cnt + 1) % 2 ^ Cfg.default.cntW = Cfg.default.tSettle ∧
    ((engineAt 0x6040#16 28).cnt + 1) % 2 ^ Cfg.default.cntW ≠ Cfg.default.tSettle := by decide
theorem witness_reservedByte : 5 ≤ (5#3 : Index).toNat ∧ 5 ≤ (7#3 : Index).toNat := by decide
theorem witness_fortySamples : (List.replicate 40 true).length = 40 := by decide
theorem witness_verifyChecksum :
    ((0x320018004A#40).toNat / 2 ^ 32 + (0x320018004A#40).toNat / 2 ^ 24 % 256 + (0x320018004A#40).toNat / 2 ^ 16 % 256 +
      (0x320018004A#40).toNat / 2 ^ 8 % 256) % 256 = (0x320018004A#40).toNat % 256 ∧
    ((0x320018004B#40).toNat / 2 ^ 32 + (0x320018004B#40).toNat / 2 ^ 24 % 256 + (0x320018004B#40).toNat / 2 ^ 16 % 256 +
      (0x320018004B#40).toNat / 2 ^ 8 % 256) % 256 ≠ (0x320018004B#40).toNat % 256 := by decide
theorem witness_singleBitError : 39 < 40 ∧ checksumOk 0x320018004A#40 = true ∧ checksumOk 0x8080000000#40 = true := by decide
theorem witness_setAndClear : ∃ t u,
    State.reset.quiet = true ∧ exec (.clrWr 0x40000000#32) State.reset = .next t ∧ exec (.clrWr 0x40000000#32) t = .next u :=
  ⟨_, _, by decide, rfl, rfl⟩
theorem witness_setTwice : ∃ t u, exec (.setWr 0x40000000#32) State.reset = .next t ∧ exec (.setWr 0x40000000#32) t = .next u :=
  ⟨_, _, rfl, rfl⟩
theorem witness_primitives : State.reset.quiet = true ∧ State.reset.cfg.wf = true ∧ 31 < 32 := by decide
/-- A step that answers a next state, in a tick without other masters, from a state of the invariants: for StepKeepsTheOtherPins,
AtMostThreeAccessesAndOneRead, StepCountsOneTickAndKeepsTheConfiguration, StepKeepsTheInvariant, StepKeepsThePinInvariant and
StepKeepsTheHistoryInvariant. -/
theorem witness_step : ∃ t, step started = .next t ∧ started.quiet = true ∧ started.exclusive = true ∧ (30 : Nat) ≠ 29 ∧
    Inv started ∧ PinInv started ∧ HistoryInv started := by
  obtain ⟨t, h, -⟩ := next_of_after (o := step started) (f := fun t => t.stateReg) (a := 0x1000#16) (by decide)
  refine ⟨t, h, by decide, by decide, by decide, ⟨by decide, ⟨.idle, by decide, by decide, by decide, nofun, fun _ => rfl, nofun⟩, rfl⟩,
    ⟨.idle, by decide, trivial⟩, nofun, .nil, nofun⟩
theorem witness_noWriteAfterTheRelease : ∃ t,
    step (seeing (engineAt 0x3000#16 0) true) = .next t ∧
    decodeStateWord (seeing (engineAt 0x3000#16 0) true).stateReg = .instr .awaitAckLow ∧ Instr.awaitAckLow ≠ .driveStartLow ∧
    Instr.awaitAckLow ≠ .driveStartHigh ∧ (Instr.awaitAckLow.rests = true → (seeing (engineAt 0x3000#16 0) true).acqReq = false) ∧
    (newEngineEvents (seeing (engineAt 0x3000#16 0) true) t).length = 1 := by
  obtain ⟨t, h, h2⟩ := next_of_after (o := step (seeing (engineAt 0x3000#16 0) true))
    (f := fun t => (newEngineEvents (seeing (engineAt 0x3000#16 0) true) t).length) (a := 1) (by decide)
  exact ⟨t, h, by decide, by decide, by decide, by decide, h2⟩
/-- The race in the start tick: the other write before the engine's read, between its read and its write, and after. -/
theorem witness_lastOeWriteWins_start :
    ([0, 1, 2].all fun slot =>
      let s : State := { started with others := [⟨0, slot, 0x1134#13, 0x0000FFFF#32⟩] }
      decide (s.accesses = 0) && !s.rst && s.acqReq && restsIn s.stateReg &&
        decide (s.others = [⟨s.tick, slot, 1#1 ++ s.cfg.offOe, 0x0000FFFF#32⟩]) &&
        (after (step s) (fun t => t.oe)).isSome) = true := by decide
/-- The same in the release tick. -/
theorem witness_lastOeWriteWins_release :
    ([0, 1, 2].all fun slot =>
      let s : State := { engineAt 0x2000#16 29 with others := [⟨0, slot, 0x1134#13, 0x0000FFFF#32⟩] }
      decide (s.accesses = 0) && !s.rst && decide (s.stateReg = 0x2000#16) &&
        decide ((s.cnt + 1) % 2 ^ s.cfg.cntW = s.cfg.tStartHigh) &&
        decide (s.others = [⟨s.tick, slot, 1#1 ++ s.cfg.offOe, 0x0000FFFF#32⟩]) &&
        (after (step s) (fun t => t.oe)).isSome) = true := by decide
/-- Another master sets bit 3 of DOUT in the tick: it spares bit PIN and meets the exclusivity premise, and the tick is
not quiet; for StartsFrom and DriveStartHighHoldsThenReleases. -/
theorem witness_exclusiveTick :
    (let s : State := { started with others := [⟨0, 1, 0x1194#13, 0x00000008#32⟩] }
     s.acqReq = true ∧ s.rst = false ∧ s.exclusive = true ∧ s.othersSpare s.cfg.pin = true ∧ s.othersSpare 3 = false ∧
       s.quiet = false ∧ s.cfg.wf = true) ∧
    (let s : State := { engineAt 0x2000#16 29 with others := [⟨0, 1, 0x1194#13, 0x00000008#32⟩] }
     (s.cnt + 1) % 2 ^ s.cfg.cntW = s.cfg.tStartHigh ∧ s.exclusive = true ∧ s.othersSpare s.cfg.pin = true ∧
       s.quiet = false ∧ s.cfg.wf = true) := by decide
theorem witness_undescribedAccesses :
    (let s : State := { State.reset with others := [⟨0, 0, 0x113C#13, 0#32⟩] }
     s.cfg.wf = true ∧ (∃ a ∈ s.others, a.tick = s.tick ∧ a.key.getLsbD 12 = true ∧ a.key.extractLsb' 0 12 ≠ s.cfg.offOe ∧
       a.key.extractLsb' 0 12 ≠ s.cfg.offClr ∧ a.key.extractLsb' 0 12 ≠ s.cfg.offSet)) ∧
    (let s : State := { engineAt 0x1000#16 0 with others := [⟨0, 0, 0x1190#13, 0x40000000#32⟩] }
     s.cfg.wf = true ∧ s.undescribedWriteNow = false ∧ s.busy = true ∧
       (∃ a ∈ s.others, a.tick = s.tick ∧ a.key = 1#1 ++ s.cfg.offClr ∧ a.data.getLsbD s.cfg.pin = true)) := by decide
theorem witness_flags : decodeStateWord (engineAt 0x8000#16 0).stateReg = .instr .success ∧
    decodeStateWord (engineAt 0x0000#16 0).stateReg = .instr .idle ∧
    decodeStateWord (engineAt 0x9A15#16 0).stateReg = .instr (.failedBitStuckHigh 2#3 5#3) := by decide
/-- Two states that agree on the engine's inputs and differ in the bank. -/
theorem witness_engineDependsOnlyOnItsInputs : ∃ (s s' t t' : State),
    s.cfg = s'.cfg ∧ s.stateReg = s'.stateReg ∧ s.cnt = s'.cnt ∧ s.sr = s'.sr ∧ s.data = s'.data ∧ s.rst = s'.rst ∧
    s.acqReq = s'.acqReq ∧ s.line = s'.line ∧ step s = .next t ∧ step s' = .next t' ∧ s.oe ≠ s'.oe := by
  obtain ⟨t, h, -⟩ := next_of_after (o := step started) (f := fun t => t.stateReg) (a := 0x1000#16) (by decide)
  obtain ⟨t', h', -⟩ := next_of_after (o := step { started with oe := 0#32 }) (f := fun t => t.stateReg) (a := 0x1000#16) (by decide)
  exact ⟨started, { started with oe := 0#32 }, t, t', rfl, rfl, rfl, rfl, rfl, rfl, rfl, rfl, h, h', by decide⟩
/-- A terminal state left by ACQUIRE, IDLE entered by `rst`, and 0x1000 entered by ACQUIRE. -/
theorem witness_terminalState :
    ((asked (engineAt 0x8000#16 0)).done = true ∧
      after (step (asked (engineAt 0x8000#16 0))) (fun t => t.stateReg) = some 0x1000#16) ∧
    after (step (underReset (engineAt 0x8000#16 0))) (fun t => t.stateReg) = some 0x0000#16 := by decide
theorem witness_failures : ∃ t, step (seeing (engineAt 0x3000#16 99) true) = .next t ∧
    t.stateReg.extractLsb' 12 4 = 0x9#4 ∧ t.stateReg ≠ (seeing (engineAt 0x3000#16 99) true).stateReg ∧
    (seeing (engineAt 0x3000#16 99) true).quiet = true := by
  obtain ⟨t, h, h2⟩ := next_of_after (o := step (seeing (engineAt 0x3000#16 99) true)) (f := fun t => t.stateReg)
    (a := 0x9200#16) (by decide)
  exact ⟨t, h, by rw [h2]; decide, by rw [h2]; decide, by decide⟩
/-- The other way into FAILED: a frame whose checksum does not hold. -/
theorem witness_failures_checksum : ∃ t, step { engineAt 0x7000#16 0 with sr := 0x320018004B#40 } = .next t ∧
    t.stateReg = 0x9C00#16 ∧ t.stateReg.extractLsb' 12 4 = 0x9#4 ∧ t.stateReg ≠ 0x7000#16 := by
  obtain ⟨t, h, h2⟩ := next_of_after (o := step { engineAt 0x7000#16 0 with sr := 0x320018004B#40 })
    (f := fun t => t.stateReg) (a := 0x9C00#16) (by decide)
  exact ⟨t, h, h2, by rw [h2]; decide, by rw [h2]; decide⟩
/-- AWAIT_ACK_LOW on a high line, in a tick in which another master sets bit 3 of DOUT before the read. -/
def sharedRead : State := { seeing (engineAt 0x3000#16 0) true with others := [⟨0, 0, 0x1194#13, 0x00000008#32⟩] }
theorem witness_neverReads : ∃ t, Inv sharedRead ∧ PinInv sharedRead ∧ step sharedRead = .next t ∧
    (∃ e ∈ newEngineEvents sharedRead t, e.key = 0#1 ++ Cfg.default.offDatain) ∧ sharedRead.exclusive = true := by
  obtain ⟨t, h, h2⟩ := next_of_after (o := step sharedRead)
    (f := fun t => (newEngineEvents sharedRead t).map (fun e => e.key)) (a := [0x0138#13]) (by decide)
  refine ⟨t, ⟨by decide, ⟨.awaitAckLow, by decide, by decide, by decide, nofun, fun _ => rfl, nofun⟩, rfl⟩,
    ⟨.awaitAckLow, by decide, rfl⟩, h, ?_, by decide⟩
  have hm : (0x0138#13 : AccessKey) ∈ (newEngineEvents sharedRead t).map (fun e => e.key) := by
    rw [h2]; exact List.mem_singleton_self _
  obtain ⟨e, he, hk⟩ := List.mem_map.1 hm
  exact ⟨e, he, by rw [hk]; decide⟩
/-- No inputs are scheduled, so every number of ticks is calm. -/
theorem calm_of_empty {s : State} (h : s.host = []) (o : s.others = []) (n : Nat) : s.calm n :=
  ⟨by rw [h]; nofun, by rw [o]; nofun⟩
/-- The only host line is an ACQUIRE, so every number of ticks is calm. -/
theorem calm_of_acquire (n : Nat) : started.calm n :=
  ⟨fun h hh hc => by
    have : h = ⟨0, .acquire⟩ := by simpa [started, asked, State.reset, State.launch] using hh
    simp [this] at hc, nofun⟩
/-- The target on the last permitted read (k = 99), and a target that never comes. -/
theorem witness_pollBounds :
    (∃ s : State, pollOf .awaitAckLow = some (false, 0x4000#16, 0x9200#16) ∧ s.cfg.wf = true ∧
      decodeStateWord s.stateReg = .instr .awaitAckLow ∧ s.cnt = 0 ∧ s.calm s.cfg.pollBound ∧ 99 < s.cfg.pollBound ∧
      (∀ j, j < 99 → s.lineAt (s.tick + j) ≠ false) ∧ s.lineAt (s.tick + 99) = false) ∧
    (∃ s : State, s.cfg.wf = true ∧ decodeStateWord s.stateReg = .instr .awaitAckLow ∧ s.cnt = 0 ∧ s.calm s.cfg.pollBound ∧
      ∀ j, j < s.cfg.pollBound → s.lineAt (s.tick + j) ≠ false) := by
  refine ⟨⟨{ engineAt 0x3000#16 0 with trace := ⟨0, [⟨0x40000000#32, 99⟩, ⟨0#32, 1⟩]⟩ }, rfl, by decide, by decide, rfl,
    calm_of_empty rfl rfl _, by decide, by decide, by decide⟩,
    ⟨seeing (engineAt 0x3000#16 0) true, by decide, by decide, rfl, calm_of_empty rfl rfl _, by decide⟩⟩
theorem witness_startPulse :
    started.cfg.wf = true ∧ (∃ i, decodeStateWord started.stateReg = .instr i) ∧ restsIn started.stateReg = true ∧
    started.acqReq = true ∧ started.calm (started.cfg.tStartLow + started.cfg.tStartHigh + 1) ∧
    (∀ a ∈ started.others, started.tick ≤ a.tick → a.tick ≤ started.tick + started.cfg.tStartLow + started.cfg.tStartHigh →
      a.key ≠ 1#1 ++ started.cfg.offOe) ∧ 18030 ≤ started.cfg.tStartLow + started.cfg.tStartHigh :=
  ⟨by decide, ⟨.idle, by decide⟩, by decide, by decide, calm_of_acquire _, nofun, by decide⟩
/-- V-BIT7: the rise is detected on the last permitted read. -/
theorem witness_sampleIsTaken : ∃ s : State, s.cfg.wf = true ∧ decodeStateWord s.stateReg = .instr (.readBitRise 0#3 0#3) ∧
    s.cnt = 0 ∧ 99 < s.cfg.pollBound ∧ (∀ j, j < 99 → s.lineAt (s.tick + j) = false) ∧ s.lineAt (s.tick + 99) = true ∧
    s.calm (99 + 1 + s.cfg.tSettle) :=
  ⟨{ engineAt 0x6000#16 0 with trace := ⟨0, [⟨0#32, 99⟩, ⟨0x40000000#32, 1⟩]⟩ }, by decide, by decide, rfl, by decide, by decide,
    by decide, calm_of_empty rfl rfl _⟩
theorem inv_started : Inv started :=
  ⟨by decide, ⟨.idle, by decide, by decide, by decide, nofun, fun _ => rfl, nofun⟩, rfl⟩
theorem witness_everyAcquisitionEnds :
    Inv started ∧ restsIn started.stateReg = true ∧ started.acqReq = true ∧ started.calm (acquisitionTicks started.cfg) :=
  ⟨inv_started, by decide, by decide, calm_of_acquire _⟩
theorem witness_noSuccessBefore : ∃ t, Inv started ∧ restsIn started.stateReg = true ∧ started.acqReq = true ∧
    started.rst = false ∧ 0 < 1 ∧ 1 < fastestSuccessTicks started.cfg ∧ runTicks 1 started = .next t := by
  obtain ⟨t, h, -⟩ := next_of_after (o := runTicks 1 started) (f := fun t => t.stateReg) (a := 0x1000#16) (by decide)
  exact ⟨t, inv_started, by decide, by decide, by decide, by decide, by decide, h⟩
/-- The last sample of a frame, its fall and its checksum: three steps to SUCCESS. -/
theorem witness_successfulReading : ∃ t, Inv lastSample ∧ lastSample.busy = true ∧
    decodeStateWord lastSample.stateReg = .instr (.readBitSettle 4#3 7#3) ∧ runTicks 3 lastSample = .next t ∧ t.valid = true ∧
    ∀ m u, m < 3 → runTicks m lastSample = .next u → u.busy = true := by
  obtain ⟨t, h, h2⟩ := next_of_after (o := runTicks 3 lastSample) (f := fun t => t.valid) (a := true) (by decide)
  refine ⟨t, ⟨by decide, ⟨.readBitSettle 4#3 7#3, by decide, by decide, by decide, nofun, fun _ => rfl, nofun⟩, rfl⟩, by decide,
    by decide, h, h2, fun m u hm hu => ?_⟩
  have hb : after (runTicks m lastSample) (fun t => t.busy) = some true := by
    clear hu
    interval_cases m <;> decide
  rw [hu] at hb
  simpa [after] using hb

end Sys2Proof.Tests
end

/-! SUPPORT. The family 00_scope.md: Table P1 as `Cfg.wf` checks it, and what a tick leaves of the configuration, the
schedules and the tick numbers. -/

namespace Sys2Proof

/-- The constraint column of Table P1, with the four offsets different (log 5). -/
theorem Cfg.wf_iff (c : Cfg) : c.wf = true ↔
    (c.pin ≤ 31 ∧ c.mask = 1#32 <<< c.pin) ∧
    (c.offOe.toNat % 4 = 0 ∧ c.offDatain.toNat % 4 = 0 ∧ c.offClr.toNat % 4 = 0 ∧ c.offSet.toNat % 4 = 0) ∧
    [c.offOe, c.offDatain, c.offClr, c.offSet].Nodup ∧
    (c.gpioBase % 4 = 0 ∧ c.regW = 32) ∧ (c.tickUs = 1 ∧ 1 ≤ c.clkPerTick) ∧
    (18000 ≤ c.tStartLow ∧ c.tStartLow < 2 ^ 16) ∧ (20 ≤ c.tStartHigh ∧ c.tStartHigh ≤ 40) ∧
    (1 ≤ c.pollBound ∧ c.pollBound < 2 ^ 16) ∧ (1 ≤ c.tSettle ∧ c.tSettle < 2 ^ 16) ∧
    (c.frameBytes = 5 ∧ c.frameBits = 8 * c.frameBytes) ∧
    ((c.tStartLow < 2 ^ c.cntW ∧ c.tStartHigh < 2 ^ c.cntW) ∧
      c.pollBound < 2 ^ c.cntW ∧ c.tSettle < 2 ^ c.cntW) := by
  simp only [Cfg.wf, Cfg.pinOk, Cfg.offsetsAligned, Cfg.offsetsDistinct, Cfg.busOk, Cfg.tickOk, Cfg.startLowOk,
    Cfg.startHighOk, Cfg.pollOk, Cfg.settleOk, Cfg.frameOk, Cfg.cntOk, List.all_cons, List.all_nil, Bool.and_true,
    Bool.and_eq_true, decide_eq_true_eq, beq_iff_eq, Nat.max_lt, and_assoc]

end Sys2Proof

namespace Sys2Proof.Machine

open Sys2Proof

/-- The configuration is looked at before everything else (R10). -/
theorem step_of_wf_eq_false {s : State} (h : s.cfg.wf = false) : step s = .refused .illFormedConfig := by
  simp [step, h]

/-- Settles O9: `step` refuses on `Cfg.wf`, and each disjunct denies one conjunct of `Cfg.wf_iff`. -/
theorem illFormedConfigurationIsRefused : Obligations.IllFormedConfigurationIsRefused := by
  refine ⟨fun s => step_of_wf_eq_false, fun c hbroken => ?_⟩
  rw [← Bool.not_eq_true, Cfg.wf_iff]
  rintro ⟨⟨hpin, hmask⟩, haligned, -, htable⟩
  obtain hp | hm | hrest := hbroken
  · omega
  · exact hm hmask
  · omega

/-! ### What no rule of the engine writes: the configuration, the tick numbers and the schedules (R15, R57) -/

/-- `t` is in the same tick as `s`, under the same configuration and with the same inputs in every tick. -/
structure SameTick (s t : State) : Prop where
  cfg : t.cfg = s.cfg
  tick : t.tick = s.tick
  sinceReset : t.sinceReset = s.sinceReset
  host : t.host = s.host
  trace : t.trace = s.trace
  others : t.others = s.others

theorem SameTick.refl (s : State) : SameTick s s := ⟨rfl, rfl, rfl, rfl, rfl, rfl⟩

theorem SameTick.trans {s t u : State} (h : SameTick s t) (h' : SameTick t u) : SameTick s u :=
  ⟨h'.cfg.trans h.cfg, h'.tick.trans h.tick, h'.sinceReset.trans h.sinceReset, h'.host.trans h.host,
    h'.trace.trans h.trace, h'.others.trans h.others⟩

section
variable (s : State)

theorem sameTick_othersBefore : SameTick s s.othersBefore := by constructor <;> simp

theorem sameTick_goto (w : StateWord) : SameTick s (s.goto w) := ⟨rfl, rfl, rfl, rfl, rfl, rfl⟩

theorem sameTick_setCnt (n : Nat) : SameTick s (s.setCnt n) := ⟨rfl, rfl, rfl, rfl, rfl, rfl⟩

theorem sameTick_afterRead : SameTick s s.afterRead := by constructor <;> simp [State.afterRead]

theorem sameTick_engineOeRd : SameTick s s.engineOeRd.2 :=
  (sameTick_othersBefore s).trans ⟨rfl, rfl, rfl, rfl, rfl, rfl⟩

theorem sameTick_engineOeWr (v : GpioWord) : SameTick s (s.engineOeWr v) :=
  (sameTick_othersBefore s).trans ⟨rfl, rfl, rfl, rfl, rfl, rfl⟩

theorem sameTick_engineClrWr (v : GpioWord) : SameTick s (s.engineClrWr v) :=
  (sameTick_othersBefore s).trans ⟨rfl, rfl, rfl, rfl, rfl, rfl⟩

theorem sameTick_engineSetWr (v : GpioWord) : SameTick s (s.engineSetWr v) :=
  (sameTick_othersBefore s).trans ⟨rfl, rfl, rfl, rfl, rfl, rfl⟩

theorem sameTick_setDirIn : SameTick s s.setDirIn := (sameTick_engineOeRd s).trans (sameTick_engineOeWr _ _)

theorem sameTick_sample (b i : Index) : SameTick s (s.sample b i) := by
  constructor <;> simp [State.sample, State.afterRead]

theorem sameTick_startAcquisition : SameTick s s.startAcquisition := by
  constructor <;> simp [State.startAcquisition]

theorem sameTick_rest : SameTick s s.rest := by
  unfold State.rest
  split
  · exact sameTick_startAcquisition s
  · exact .refl s

theorem sameTick_poll (target : Bool) (next : StateWord) (k : FailKind) (b i : Index) :
    SameTick s (s.poll target next k b i) := by
  rw [State.poll_eq]
  split_ifs
  · exact (sameTick_afterRead s).trans (sameTick_goto _ _)
  · exact (sameTick_afterRead s).trans (sameTick_goto _ _)
  · exact (sameTick_afterRead s).trans (sameTick_setCnt _ _)

theorem sameTick_hold {n : Nat} {act : State → State} (h : SameTick s (act s)) : SameTick s (s.hold n act) := by
  rw [State.hold_eq]
  split_ifs
  · exact h
  · exact sameTick_setCnt s _

end

/-- A state rule with a byte index answers its next state or none (R69). -/
theorem withByteIndex_next {b : Index} {t u : State} (h : withByteIndex b t = .next u) : t = u := by
  unfold withByteIndex at h
  split at h
  · exact Host.Outcome.next.inj h
  · cases h

/-- The state that an outcome with a byte index answers is in the tick its rule is in. -/
theorem SameTick.of_withByteIndex {b : Index} {s t u : State} (ht : SameTick s t) (h : withByteIndex b t = .next u) :
    SameTick s u := withByteIndex_next h ▸ ht

/-- The same for a rule without a byte index. -/
theorem SameTick.of_next {s t u : State} (ht : SameTick s t)
    (h : (.next t : Host.Outcome State Fault Refusal) = .next u) : SameTick s u := Host.Outcome.next.inj h ▸ ht

/-- No instruction writes the configuration, the tick numbers or the schedules. -/
theorem exec_sameTick {i : Instr} {s t : State} (h : exec i s = .next t) : SameTick s t := by
  cases i with
  | idle | success | failedNoResponse | failedStuckLow | failedStuckHigh | failedChecksumMismatch =>
    exact (sameTick_rest s).of_next h
  | failedBitTimeout b i | failedBitStuckHigh b i => exact (sameTick_rest s).of_withByteIndex h
  | awaitAckLow | awaitAckHigh | awaitAckEnd => exact (sameTick_poll s _ _ _ _ _).of_next h
  | readBitRise b i | readBitFall b i => exact (sameTick_poll s _ _ _ _ _).of_withByteIndex h
  | driveStartLow =>
    exact (sameTick_hold s ((sameTick_engineSetWr s _).trans (sameTick_goto _ _))).of_next h
  | driveStartHigh => exact (sameTick_hold s ((sameTick_setDirIn s).trans (sameTick_goto _ _))).of_next h
  | readBitSettle b i => exact (sameTick_hold s (sameTick_sample s b i)).of_withByteIndex h
  | verifyChecksum =>
    refine SameTick.of_next ?_ h
    split_ifs
    · exact ⟨rfl, rfl, rfl, rfl, rfl, rfl⟩
    · exact sameTick_goto s _
  | oeRd => exact (sameTick_engineOeRd s).of_next h
  | datainRd => exact SameTick.of_next (s.engineDatainRd_snd ▸ sameTick_afterRead s) h
  | oeWr v => exact (sameTick_engineOeWr s v).of_next h
  | clrWr v => exact (sameTick_engineClrWr s v).of_next h
  | setWr v => exact (sameTick_engineSetWr s v).of_next h
  | acquire =>
    refine SameTick.of_next ?_ h
    split_ifs
    · exact sameTick_startAcquisition s
    · exact .refl s

/-- Settles O35: by `step_next` the tick is a reset tick, or an instruction that leaves time and inputs alone
(`exec_sameTick`) and the end of the tick, which counts. -/
theorem stepCountsOneTickAndKeepsTheConfiguration : Obligations.StepCountsOneTickAndKeepsTheConfiguration := by
  refine ⟨rfl, fun s t h => ?_⟩
  obtain ⟨-, ⟨hrst, rfl⟩ | ⟨hrst, i, u, -, hexec, rfl⟩⟩ := step_next h
  · simp [hrst]
  · have hu := exec_sameTick hexec
    simp [State.endTick, hrst, hu.cfg, hu.tick, hu.sinceReset, hu.host, hu.trace, hu.others]

end Sys2Proof.Machine

/-! SUPPORT. The family 10_state.md: what a legal state word says of its instruction, what the rule of a legal state
makes of the machine in one tick, and the invariants that every tick keeps. -/

namespace Sys2Proof

/-! ### KIND (R64) -/

/-- The KIND of an instruction's state word; the bus accesses and ACQUIRE have none (R64). -/
def Instr.kind : Instr → Option (BitVec 4)
  | .idle => some 0x0#4
  | .driveStartLow => some 0x1#4
  | .driveStartHigh => some 0x2#4
  | .awaitAckLow => some 0x3#4
  | .awaitAckHigh => some 0x4#4
  | .awaitAckEnd => some 0x5#4
  | .readBitRise _ _ => some 0x6#4
  | .readBitSettle _ _ => some 0x6#4
  | .readBitFall _ _ => some 0x6#4
  | .verifyChecksum => some 0x7#4
  | .success => some 0x8#4
  | .failedNoResponse => some 0x9#4
  | .failedStuckLow => some 0x9#4
  | .failedStuckHigh => some 0x9#4
  | .failedBitTimeout _ _ => some 0x9#4
  | .failedBitStuckHigh _ _ => some 0x9#4
  | .failedChecksumMismatch => some 0x9#4
  | .oeRd | .datainRd | .oeWr _ | .clrWr _ | .setWr _ | .acquire => none

/-- The instruction has state words of this KIND, and its operands are in range (R67). -/
def Instr.HasKind (i : Instr) (k : BitVec 4) : Prop := i.kind = some k ∧ i.wf = true

theorem decodePlain_hasKind {w : StateWord} {i j : Instr} {k : BitVec 4} (hi : i.HasKind k)
    (h : decodePlain w i = .instr j) : j.HasKind k := by
  unfold decodePlain at h
  split at h
  · exact Decoded.instr.inj h ▸ hi
  · cases h

theorem decodeFailedPlain_hasKind {w : StateWord} {i j : Instr} {k : BitVec 4} (hi : i.HasKind k)
    (h : decodeFailedPlain w i = .instr j) : j.HasKind k := by
  unfold decodeFailedPlain at h
  split at h
  · exact Decoded.instr.inj h ▸ hi
  · cases h

theorem decodeFailedIndexed_hasKind {w : StateWord} {i : Index → Index → Instr} {j : Instr} {k : BitVec 4}
    (hi : ∀ b n, byteIndexOk b = true → (i b n).HasKind k) (h : decodeFailedIndexed w i = .instr j) : j.HasKind k := by
  unfold decodeFailedIndexed at h
  split at h
  · cases h
  split at h
  · cases h
  · rename_i hb
    exact Decoded.instr.inj h ▸ hi _ _ (by simpa using hb)

theorem decodeReadBit_hasKind {w : StateWord} {j : Instr} (h : decodeReadBit w = .instr j) : j.HasKind 0x6#4 := by
  unfold decodeReadBit at h
  split at h
  · cases h
  split at h
  · cases h
  split at h
  · cases h
  rename_i hb
  rw [Bool.not_eq_false] at hb
  split at h
  · exact Decoded.instr.inj h ▸ ⟨rfl, hb⟩
  split at h
  · exact Decoded.instr.inj h ▸ ⟨rfl, hb⟩
  · exact Decoded.instr.inj h ▸ ⟨rfl, hb⟩

theorem decodeFailed_hasKind {w : StateWord} {j : Instr} (h : decodeFailed w = .instr j) : j.HasKind 0x9#4 := by
  unfold decodeFailed at h
  split at h
  case h_4 => exact decodeFailedIndexed_hasKind (i := .failedBitTimeout) (fun b n hb => ⟨rfl, hb⟩) h
  case h_5 => exact decodeFailedIndexed_hasKind (i := .failedBitStuckHigh) (fun b n hb => ⟨rfl, hb⟩) h
  case h_7 => cases h
  all_goals exact decodeFailedPlain_hasKind ⟨rfl, rfl⟩ h

/-- A legal state word has the KIND of its instruction, whose operands are in range (R64, R67). -/
theorem decodeStateWord_hasKind {w : StateWord} {i : Instr} (h : decodeStateWord w = .instr i) :
    i.HasKind (StateWord.kind w) := by
  rw [show StateWord.kind w = BitVec.ofNat 4 (StateWord.kind w).toNat by simp]
  unfold decodeStateWord at h
  split at h
  case h_11 => cases h
  all_goals
    rename_i hk
    rw [hk]
  case h_7 => exact decodeReadBit_hasKind h
  case h_10 => exact decodeFailed_hasKind h
  all_goals exact decodePlain_hasKind ⟨rfl, rfl⟩ h

theorem wf_of_decodeStateWord {w : StateWord} {i : Instr} (h : decodeStateWord w = .instr i) : i.wf = true :=
  (decodeStateWord_hasKind h).2

/-! ### Classes of states -/

/-- The states that count a hold: the start pulse and SETTLE (R100, R101, R115). -/
def Instr.holds : Instr → Bool
  | .driveStartLow | .driveStartHigh | .readBitSettle _ _ => true
  | _ => false

/-- The states in which the pin drives nothing (R36): all but IDLE, which asks nothing of the pin, and the start
pulse. -/
def Instr.released : Instr → Bool
  | .idle | .driveStartLow | .driveStartHigh => false
  | _ => true

end Sys2Proof

namespace Sys2Proof.Machine

open Sys2Proof

/-! ### The status signals (R27, R30) -/

/-- A legal state word accepts ACQUIRE exactly where its instruction rests (R97). -/
theorem restsIn_of_decode {w : StateWord} {i : Instr} (h : decodeStateWord w = .instr i) : restsIn w = i.rests := by
  obtain ⟨hk, -⟩ := decodeStateWord_hasKind h
  unfold restsIn
  generalize StateWord.kind w = k at hk
  cases i <;> cases hk <;> rfl

/-- BUSY is 0 exactly in the resting states (R27). -/
theorem State.busy_of_decode {s : State} {i : Instr} (h : decodeStateWord s.stateReg = .instr i) :
    s.busy = !i.rests := by
  rw [State.busy, restsIn_of_decode h]

/-- DONE is 1 exactly in the resting states other than IDLE (R27). -/
theorem State.done_of_decode {s : State} {i : Instr} (h : decodeStateWord s.stateReg = .instr i) :
    s.done = (i.rests && decide (i ≠ .idle)) := by
  obtain ⟨hk, -⟩ := decodeStateWord_hasKind h
  unfold State.done
  generalize StateWord.kind s.stateReg = k at hk
  cases i <;> cases hk <;> rfl

/-- VALID is 1 exactly in SUCCESS (R27). -/
theorem State.valid_of_decode {s : State} {i : Instr} (h : decodeStateWord s.stateReg = .instr i) :
    s.valid = decide (i = .success) := by
  obtain ⟨hk, -⟩ := decodeStateWord_hasKind h
  unfold State.valid
  generalize StateWord.kind s.stateReg = k at hk
  cases i <;> cases hk <;> rfl

/-- In IDLE the three status signals are 0 (R27, R30). -/
theorem State.flags_of_idle {s : State} (h : decodeStateWord s.stateReg = .instr .idle) :
    s.busy = false ∧ s.done = false ∧ s.valid = false :=
  ⟨State.busy_of_decode h, State.done_of_decode h, State.valid_of_decode h⟩

/-- A launch state is in IDLE (R30). -/
theorem decode_launch (c : Cfg) (d : GpioWord) : decodeStateWord (State.launch c d).stateReg = .instr .idle := decode_idle

/-- Settles O10: `State.launch` writes the reset values, and its flags are those of IDLE. -/
theorem resetStateHoldsTheResetValues : Obligations.ResetStateHoldsTheResetValues := by
  refine ⟨fun c d => ?_, ⟨_, rfl⟩⟩
  obtain ⟨hbusy, hdone, hvalid⟩ := State.flags_of_idle (decode_launch c d)
  exact ⟨rfl, rfl, rfl, rfl, hbusy, hdone, hvalid, rfl, rfl⟩

/-- Settles O33: each signal tests KIND, which the instruction of a legal word determines (`decodeStateWord_hasKind`). -/
theorem flagsFollowTheStateWord : Obligations.FlagsFollowTheStateWord := by
  intro s i h
  have hvalid := State.valid_of_decode h
  refine ⟨by simp [State.busy_of_decode h], by simp [State.done_of_decode h], by simp [hvalid], ?_,
    State.flags_of_idle (decode_launch _ _)⟩
  simp [State.reading, hvalid]

/-! ### The set and clear writes (R33, R34, R48) -/

/-- CLR_WR in a tick without other masters (R33, R84). -/
theorem State.engineClrWr_dout_of_quiet {s : State} (h : s.quiet = true) (v : GpioWord) :
    (s.engineClrWr v).dout = s.dout &&& ~~~v := by
  simp [State.engineClrWr, State.clrWrite, s.othersBefore_of_quiet h]

/-- SET_WR in a tick without other masters (R34, R85). -/
theorem State.engineSetWr_dout_of_quiet {s : State} (h : s.quiet = true) (v : GpioWord) :
    (s.engineSetWr v).dout = s.dout ||| v := by
  simp [State.engineSetWr, State.setWrite, s.othersBefore_of_quiet h]

/-- Settles O26: the first write leaves the tick quiet, so both act on DOUT by the one bitwise operation, which is
idempotent. -/
theorem setAndClearAreBitIsolatedAndIdempotent : Obligations.SetAndClearAreBitIsolatedAndIdempotent := by
  intro s t u v hs
  constructor
  · intro ht hu
    cases ht; cases hu
    have hq : (s.engineClrWr v).quiet = true :=
      (State.quiet_congr (sameTick_engineClrWr s v).tick (sameTick_engineClrWr s v).others).trans hs
    rw [State.engineClrWr_dout_of_quiet hq, State.engineClrWr_dout_of_quiet hs]
    refine ⟨by rw [BitVec.and_assoc, BitVec.and_self], fun n _ => ?_⟩
    rw [getLsbD_and_not]
    cases v.getLsbD n <;> simp
  · intro ht hu
    cases ht; cases hu
    have hq : (s.engineSetWr v).quiet = true :=
      (State.quiet_congr (sameTick_engineSetWr s v).tick (sameTick_engineSetWr s v).others).trans hs
    rw [State.engineSetWr_dout_of_quiet hq, State.engineSetWr_dout_of_quiet hs]
    refine ⟨by rw [BitVec.or_assoc, BitVec.or_self], fun n _ => ?_⟩
    rw [BitVec.getLsbD_or]
    cases v.getLsbD n <;> simp

/-! ### The words of a poll (R103) -/

theorem readBitWord_settle_eq (b n : Index) :
    readBitWord 1#2 b n = BitVec.ofNat 16 (0x6040 + 8 * b.toNat + n.toNat) := by
  revert b n; decide

theorem nextBit_eq {b : Index} (hb : byteIndexOk b = true) (n : Index) :
    nextBit b n =
      if 8 * b.toNat + n.toNat < 39 then BitVec.ofNat 16 (0x6000 + 8 * b.toNat + n.toNat + 1) else 0x7000#16 := by
  revert n hb b; decide

theorem failedWord_bitTimeout_eq (b n : Index) :
    failedWord .bitTimeout b n = BitVec.ofNat 16 (0x9800 + 8 * b.toNat + n.toNat) := by
  revert b n; decide

theorem failedWord_bitStuckHigh_eq (b n : Index) :
    failedWord .bitStuckHigh b n = BitVec.ofNat 16 (0x9A00 + 8 * b.toNat + n.toNat) := by
  revert b n; decide

theorem withByteIndex_of_ok {b : Index} (hb : byteIndexOk b = true) (t : State) : withByteIndex b t = .next t :=
  if_pos hb

/-- Everything a polling state can do, by the words `pollOf` names (R103). -/
theorem exec_poll {i : Instr} {target : Bool} {next fail : StateWord} (hp : pollOf i = some (target, next, fail))
    (hw : i.wf = true) (s : State) :
    exec i s = .next
      (if s.line = target then s.afterRead.goto next
       else if s.cntSucc = s.cfg.pollBound then s.afterRead.goto fail
       else s.afterRead.setCnt s.cntSucc) := by
  cases i with
  | awaitAckLow | awaitAckHigh | awaitAckEnd => cases hp; exact congrArg _ (State.poll_eq ..)
  | readBitRise b n =>
    cases hp
    rw [← readBitWord_settle_eq, ← failedWord_bitTimeout_eq, ← State.poll_eq]
    exact withByteIndex_of_ok hw _
  | readBitFall b n =>
    cases hp
    rw [← nextBit_eq hw, ← failedWord_bitStuckHigh_eq, ← State.poll_eq]
    exact withByteIndex_of_ok hw _
  | _ => cases hp

/-- SR and DATA may stay as they are when the state of `j` follows that of `i` (R25, R121). -/
structure KeepsReading (i j : Instr) : Prop where
  samples : sampleCount j = sampleCount i
  sourceNotSuccess : i ≠ .success
  targetNotSuccess : j ≠ .success
  targetNotMismatch : j ≠ .failedChecksumMismatch

/-- Where a poll of the state of `i` leads: to a state of the same samples, with the pin released (R110, R121). -/
def LeadsTo (i : Instr) (w : StateWord) : Prop :=
  ∃ j, decodeStateWord w = .instr j ∧ KeepsReading i j ∧ j.released = true

/-- The bit that FALL moves on to, or the checksum (R118). -/
theorem nextBit_leadsTo {b : Index} (hb : byteIndexOk b = true) (n : Index) : LeadsTo (.readBitFall b n) (nextBit b n) := by
  refine ⟨_, decode_nextBit hb n, ?_⟩
  have hb4 : b.toNat ≤ 4 := of_decide_eq_true hb
  split_ifs with hn hlast
  · have : (n + 1#3).toNat = n.toNat + 1 := by bv_omega
    exact ⟨⟨by simp only [sampleCount]; omega, nofun, nofun, nofun⟩, rfl⟩
  · have : (b + 1#3).toNat = b.toNat + 1 := by bv_omega
    exact ⟨⟨by simp only [sampleCount]; bv_omega, nofun, nofun, nofun⟩, rfl⟩
  · exact ⟨⟨by simp only [sampleCount]; omega, nofun, nofun, nofun⟩, rfl⟩

/-- The two words of a poll, in a state whose pin is released. -/
theorem pollOf_leadsTo {i : Instr} {target : Bool} {next fail : StateWord} (hp : pollOf i = some (target, next, fail))
    (hw : i.wf = true) : i.released = true ∧ LeadsTo i next ∧ LeadsTo i fail := by
  cases i with
  | awaitAckLow =>
    cases hp
    exact ⟨rfl, ⟨_, decode_awaitAckHigh, ⟨rfl, nofun, nofun, nofun⟩, rfl⟩,
      ⟨_, decode_failedWord .noResponse (b := 0#3) rfl 0#3, ⟨rfl, nofun, nofun, nofun⟩, rfl⟩⟩
  | awaitAckHigh =>
    cases hp
    exact ⟨rfl, ⟨_, decode_awaitAckEnd, ⟨rfl, nofun, nofun, nofun⟩, rfl⟩,
      ⟨_, decode_failedWord .stuckLow (b := 0#3) rfl 0#3, ⟨rfl, nofun, nofun, nofun⟩, rfl⟩⟩
  | awaitAckEnd =>
    cases hp
    exact ⟨rfl, ⟨_, (decode_readBitWord (b := 0#3) rfl 0#3).1, ⟨rfl, nofun, nofun, nofun⟩, rfl⟩,
      ⟨_, decode_failedWord .stuckHigh (b := 0#3) rfl 0#3, ⟨rfl, nofun, nofun, nofun⟩, rfl⟩⟩
  | readBitRise b n =>
    cases hp
    rw [← readBitWord_settle_eq, ← failedWord_bitTimeout_eq]
    exact ⟨rfl, ⟨_, (decode_readBitWord hw n).2.1, ⟨rfl, nofun, nofun, nofun⟩, rfl⟩,
      ⟨_, decode_failedWord .bitTimeout hw n, ⟨rfl, nofun, nofun, nofun⟩, rfl⟩⟩
  | readBitFall b n =>
    cases hp
    rw [← nextBit_eq hw, ← failedWord_bitStuckHigh_eq]
    refine ⟨rfl, nextBit_leadsTo hw n,
      ⟨_, decode_failedWord .bitStuckHigh hw n, ⟨rfl, nofun, nofun, nofun⟩, rfl⟩⟩
  | _ => cases hp

theorem cntBound_of_pollOf {i : Instr} {target : Bool} {next fail : StateWord}
    (hp : pollOf i = some (target, next, fail)) (c : Cfg) : cntBound c i = c.pollBound := by
  cases i with
  | awaitAckLow | awaitAckHigh | awaitAckEnd | readBitRise _ _ | readBitFall _ _ => rfl
  | _ => cases hp

/-! ### What the rule of a legal state can do in one tick (R95) -/

/-- From `s`, in the state of `i` and without `rst`, the instruction of the tick makes `u`: a resting state waits or
starts an acquisition, a hold or a poll counts or moves on, and the checksum decides. -/
inductive Move (s : State) : Instr → State → Prop
  | wait {i : Instr} (hi : i.rests = true) (ha : s.acqReq = false) : Move s i s
  | start {i : Instr} (hi : i.rests = true) (ha : s.acqReq = true) : Move s i s.startAcquisition
  | count {i : Instr} (hi : i.holds = true) (hc : s.cntSucc ≠ cntBound s.cfg i) : Move s i (s.setCnt s.cntSucc)
  | driveHigh (hc : s.cntSucc = s.cfg.tStartLow) : Move s .driveStartLow (s.driveHigh.goto (plainWord 0x2#4))
  | release (hc : s.cntSucc = s.cfg.tStartHigh) : Move s .driveStartHigh (s.setDirIn.goto (plainWord 0x3#4))
  | sample {b n : Index} (hb : byteIndexOk b = true) (hc : s.cntSucc = s.cfg.tSettle) :
    Move s (.readBitSettle b n) (s.sample b n)
  | detect {i : Instr} {target : Bool} {next fail : StateWord} (hp : pollOf i = some (target, next, fail))
    (hw : i.wf = true) (hl : s.line = target) : Move s i (s.afterRead.goto next)
  | timeOut {i : Instr} {target : Bool} {next fail : StateWord} (hp : pollOf i = some (target, next, fail))
    (hw : i.wf = true) (hl : s.line ≠ target) (hc : s.cntSucc = s.cfg.pollBound) : Move s i (s.afterRead.goto fail)
  | miss {i : Instr} {target : Bool} {next fail : StateWord} (hp : pollOf i = some (target, next, fail))
    (hw : i.wf = true) (hl : s.line ≠ target) (hc : s.cntSucc ≠ s.cfg.pollBound) :
    Move s i (s.afterRead.setCnt s.cntSucc)
  | accept (hf : checksumOk s.sr = true) : Move s .verifyChecksum ((s.setData s.sr).goto (plainWord 0x8#4))
  | mismatch (hf : checksumOk s.sr = false) :
    Move s .verifyChecksum (s.goto (failedWord .checksumMismatch 0#3 0#3))

/-- A resting state's instruction runs the one resting rule (R99, R127, R128). -/
theorem exec_rest {i : Instr} (hr : i.rests = true) (hw : i.wf = true) (s : State) : exec i s = .next s.rest := by
  cases i with
  | failedBitTimeout b n | failedBitStuckHigh b n => exact withByteIndex_of_ok hw _
  | idle | success | failedNoResponse | failedStuckLow | failedStuckHigh | failedChecksumMismatch => rfl
  | _ => cases hr

/-- ACQUIRE in a resting state without `rst` (R97, R98). -/
theorem exec_acquire {s : State} (hr : s.rst = false) (hs : restsIn s.stateReg = true) :
    exec .acquire s = .next s.startAcquisition := congrArg _ (if_pos ⟨hr, hs⟩)

theorem Move.of_hold {s : State} {i : Instr} {act : State → State} (hi : i.holds = true)
    (hend : s.cntSucc = cntBound s.cfg i → Move s i (act s)) : Move s i (s.hold (cntBound s.cfg i) act) := by
  rw [State.hold_eq]
  split_ifs with hc
  · exact hend hc
  · exact .count hi hc

theorem Move.of_poll {s : State} {i : Instr} {target : Bool} {next fail : StateWord}
    (hp : pollOf i = some (target, next, fail)) (hw : i.wf = true) :
    Move s i (if s.line = target then s.afterRead.goto next
      else if s.cntSucc = s.cfg.pollBound then s.afterRead.goto fail
      else s.afterRead.setCnt s.cntSucc) := by
  split_ifs with hl hc
  · exact .detect hp hw hl
  · exact .timeOut hp hw hl hc
  · exact .miss hp hw hl hc

/-- A state that does not rest makes a move. -/
theorem exists_move_of_busy {s : State} {i : Instr} (hi : decodeStateWord s.stateReg = .instr i)
    (hr : i.rests = false) : ∃ u, exec i s = .next u ∧ Move s i u := by
  obtain ⟨hk, hw⟩ := decodeStateWord_hasKind hi
  cases i with
  | awaitAckLow | awaitAckHigh | awaitAckEnd | readBitRise b n | readBitFall b n =>
    exact ⟨_, exec_poll rfl hw s, .of_poll rfl hw⟩
  | driveStartLow => exact ⟨_, rfl, .of_hold rfl .driveHigh⟩
  | driveStartHigh => exact ⟨_, rfl, .of_hold rfl .release⟩
  | readBitSettle b n => exact ⟨_, withByteIndex_of_ok hw _, .of_hold rfl (.sample hw)⟩
  | verifyChecksum =>
    refine ⟨_, rfl, ?_⟩
    split_ifs with hf
    · exact .accept hf
    · exact .mismatch (by simpa using hf)
  | oeRd | datainRd | oeWr _ | clrWr _ | setWr _ | acquire => cases hk
  | _ => cases hr

/-- The instruction a tick selects in a legal state (R62, R97). -/
theorem State.selected_of_decode {s : State} {i : Instr} (hi : decodeStateWord s.stateReg = .instr i) :
    s.selected = .instr (if i.rests && s.acqReq then .acquire else i) := by
  unfold State.selected
  simp only [hi, restsIn_of_decode hi, State.hostBit]
  cases i.rests <;> cases s.acqReq <;> rfl

/-- In a legal state and without `rst`, the selected instruction makes a move (R95, R96). -/
theorem exists_move {s : State} {i : Instr} (hrst : s.rst = false) (hi : decodeStateWord s.stateReg = .instr i) :
    ∃ u, exec (if i.rests && s.acqReq then .acquire else i) s = .next u ∧ Move s i u := by
  cases hr : i.rests with
  | false => exact exists_move_of_busy hi hr
  | true =>
    cases ha : s.acqReq with
    | true => exact ⟨_, exec_acquire hrst ((restsIn_of_decode hi).trans hr), .start hr ha⟩
    | false =>
      refine ⟨s, (exec_rest hr (wf_of_decodeStateWord hi) s).trans ?_, .wait hr ha⟩
      simp [State.rest, ha]

/-- Everything a step from a legal state can do: reset, or a move and the end of the tick. -/
theorem step_move {s t : State} {i : Instr} (hi : decodeStateWord s.stateReg = .instr i) (h : step s = .next t) :
    t = s.resetTick ∨ ∃ u, Move s i u ∧ t = u.endTick := by
  obtain ⟨-, ⟨-, rfl⟩ | ⟨hrst, j, u, hj, hu, rfl⟩⟩ := step_next h
  · exact .inl rfl
  · obtain ⟨v, hv, hmove⟩ := exists_move hrst hi
    cases (State.selected_of_decode hi).symm.trans hj
    cases hv.symm.trans hu
    exact .inr ⟨_, hmove, rfl⟩

/-- A move stays in its tick, under the same configuration and inputs (R15, R57). -/
theorem Move.sameTick {s u : State} {i : Instr} (h : Move s i u) : SameTick s u := by
  cases h with
  | wait => exact .refl s
  | start => exact sameTick_startAcquisition s
  | count => exact sameTick_setCnt s _
  | driveHigh => exact (sameTick_engineSetWr s _).trans (sameTick_goto _ _)
  | release => exact (sameTick_setDirIn s).trans (sameTick_goto _ _)
  | sample => exact sameTick_sample s _ _
  | detect | timeOut => exact (sameTick_afterRead s).trans (sameTick_goto _ _)
  | miss => exact (sameTick_afterRead s).trans (sameTick_setCnt _ _)
  | accept => exact ⟨rfl, rfl, rfl, rfl, rfl, rfl⟩
  | mismatch => exact sameTick_goto s _

/-! ### The invariant of the engine registers (R21, R23, R25, R121, R129) -/

/-- Every bound of CNT is positive and fits CNT (Table P1, R23). -/
theorem cntBound_of_wf {c : Cfg} (hw : c.wf = true) (i : Instr) : 0 < cntBound c i ∧ cntBound c i < 2 ^ c.cntW := by
  have := Cfg.bounds_of_wf hw
  cases i <;> simp only [cntBound] <;> omega

/-- Below its bound CNT counts without wrapping, and a tick that does not end the count stays below it (R23). -/
theorem State.cntSucc_lt_cntBound {s : State} {i : Instr} (hw : s.cfg.wf = true) (hcnt : s.cnt < cntBound s.cfg i)
    (hc : s.cntSucc ≠ cntBound s.cfg i) : s.cntSucc < cntBound s.cfg i := by
  have hbound := (cntBound_of_wf hw i).2
  rw [s.cntSucc_of_lt (by omega)] at hc ⊢
  omega

/-- One more sample, one more bit of SR (R115, R121). -/
theorem shiftIn_toNat_lt {f : Frame} {n : Nat} (hf : f.toNat < 2 ^ n) (level : Bool) :
    (shiftIn f level).toNat < 2 ^ (n + 1) := by
  have hlevel : (BitVec.ofBool level).toNat < 2 := (BitVec.ofBool level).isLt
  have hlow : f.toNat % 2 ^ 39 ≤ f.toNat := Nat.mod_le _ _
  have hshift : (shiftIn f level).toNat = 2 * (f.toNat % 2 ^ 39) + (BitVec.ofBool level).toNat := by
    rw [shiftIn, BitVec.toNat_append, ← Nat.shiftLeft_add_eq_or_of_lt hlevel, BitVec.extractLsb'_toNat,
      Nat.shiftRight_zero, Nat.shiftLeft_eq, Nat.pow_one, Nat.mul_comm]
  rw [hshift, Nat.pow_succ]
  omega

/-- `t` has the configuration, SR and DATA of `s`. -/
structure SameReading (s t : State) : Prop where
  cfg : t.cfg = s.cfg
  sr : t.sr = s.sr
  data : t.data = s.data

theorem sameReading_afterRead (s : State) : SameReading s s.afterRead := by constructor <;> simp [State.afterRead]

/-- CNT alone changed, to a value below the bound. -/
theorem RegistersFit.of_count {s t : State} {i : Instr} (h : RegistersFit s i) (hst : SameReading s t)
    (hcnt : t.cnt < cntBound s.cfg i) : RegistersFit t i := by
  obtain ⟨-, hsr, hsucc, helse, hmis⟩ := h
  obtain ⟨hcfg, hs, hd⟩ := hst
  exact ⟨hcfg ▸ hcnt, hs ▸ hsr, by rwa [hs, hd], by rwa [hd], by rwa [hs]⟩

/-- STATE alone changed, with CNT 0, to a state that asks the same of SR and DATA. -/
theorem RegistersFit.of_goto {s t : State} {i j : Instr} (h : RegistersFit s i) (hij : KeepsReading i j)
    (hst : SameReading s t) (hw : s.cfg.wf = true) (hcnt : t.cnt = 0) : RegistersFit t j where
  cntFits := hcnt ▸ hst.cfg ▸ (cntBound_of_wf hw j).1
  srFits := by rw [hst.sr, hij.samples]; exact h.srFits
  dataInSuccess hj := absurd hj hij.targetNotSuccess
  dataElsewhere _ := hst.data.trans (h.dataElsewhere hij.sourceNotSuccess)
  mismatchIsReal hj := absurd hj hij.targetNotMismatch

/-- Cleared registers fit every state but SUCCESS and CHECKSUM_MISMATCH (R30, R98). -/
theorem RegistersFit.of_cleared {s : State} {i : Instr} (hw : s.cfg.wf = true) (hcnt : s.cnt = 0) (hsr : s.sr = 0#40)
    (hdata : s.data = 0#40) (hi : i ≠ .success) (hi' : i ≠ .failedChecksumMismatch) : RegistersFit s i where
  cntFits := hcnt ▸ (cntBound_of_wf hw i).1
  srFits := hsr ▸ Nat.two_pow_pos _
  dataInSuccess h := absurd h hi
  dataElsewhere _ := hdata
  mismatchIsReal h := absurd h hi'

/-- A move ends in a legal state word whose registers fit. -/
theorem Move.registersFit {s u : State} {i : Instr} (h : Move s i u) (hi : decodeStateWord s.stateReg = .instr i)
    (hw : s.cfg.wf = true) (hfit : RegistersFit s i) :
    ∃ j, decodeStateWord u.stateReg = .instr j ∧ RegistersFit u j := by
  have hread := sameReading_afterRead s
  cases h with
  | wait => exact ⟨i, hi, hfit⟩
  | start =>
    exact ⟨_, decode_driveStartLow, .of_cleared (by simpa [State.startAcquisition]) rfl (by simp [State.startAcquisition])
      (by simp [State.startAcquisition]) nofun nofun⟩
  | count _ hc => exact ⟨i, hi, hfit.of_count ⟨rfl, rfl, rfl⟩ (State.cntSucc_lt_cntBound hw hfit.cntFits hc)⟩
  | driveHigh =>
    exact ⟨_, decode_driveStartHigh, hfit.of_goto ⟨rfl, nofun, nofun, nofun⟩ ⟨by simp, by simp, by simp⟩ hw rfl⟩
  | release =>
    exact ⟨_, decode_awaitAckLow, hfit.of_goto ⟨rfl, nofun, nofun, nofun⟩ ⟨by simp, by simp, by simp⟩ hw rfl⟩
  | @sample b n hb =>
    refine ⟨_, (decode_readBitWord hb n).2.2, ?_, ?_, nofun, fun _ => ?_, nofun⟩
    · exact (cntBound_of_wf (hread.cfg ▸ hw) (.readBitFall b n)).1
    · exact shiftIn_toNat_lt hfit.srFits _
    · exact (congrArg State.data s.readLevel_snd).trans (hread.data.trans (hfit.dataElsewhere nofun))
  | detect hp hwf =>
    obtain ⟨-, ⟨j, hj, hij, -⟩, -⟩ := pollOf_leadsTo hp hwf
    exact ⟨j, hj, hfit.of_goto hij ⟨hread.cfg, hread.sr, hread.data⟩ hw rfl⟩
  | timeOut hp hwf =>
    obtain ⟨-, -, j, hj, hij, -⟩ := pollOf_leadsTo hp hwf
    exact ⟨j, hj, hfit.of_goto hij ⟨hread.cfg, hread.sr, hread.data⟩ hw rfl⟩
  | miss hp _ _ hc =>
    rw [← cntBound_of_pollOf hp s.cfg] at hc
    exact ⟨i, by simpa [State.afterRead] using hi, hfit.of_count ⟨hread.cfg, hread.sr, hread.data⟩
      (State.cntSucc_lt_cntBound hw hfit.cntFits hc)⟩
  | accept hf =>
    exact ⟨_, decode_success, (cntBound_of_wf hw .success).1, hfit.srFits, fun _ => ⟨rfl, hf⟩, fun h => absurd rfl h,
      nofun⟩
  | mismatch hf =>
    exact ⟨_, decode_failedWord .checksumMismatch (b := 0#3) rfl 0#3, (cntBound_of_wf hw .failedChecksumMismatch).1,
      hfit.srFits, nofun, fun _ => hfit.dataElsewhere nofun, fun _ => hf⟩

/-- The other masters' last accesses and the tick's number are outside the registers' invariant. -/
theorem Inv.of_endTick {u : State} (hw : u.cfg.wf = true)
    (h : ∃ i, decodeStateWord u.stateReg = .instr i ∧ RegistersFit u i) : Inv u.endTick := by
  obtain ⟨i, hi, hfit⟩ := h
  have hend : SameReading u u.endTick := by constructor <;> simp [State.endTick]
  exact ⟨hend.cfg ▸ hw, ⟨i, by simpa [State.endTick] using hi, hfit.of_count hend (by
    simpa [State.endTick] using hfit.cntFits)⟩, rfl⟩

/-- A reset tick leaves the reset values, which fit IDLE (R157). -/
theorem inv_resetTick {s : State} (hw : s.cfg.wf = true) : Inv s.resetTick :=
  ⟨by simpa, ⟨.idle, by rw [s.resetTick_stateReg]; exact decode_idle,
    .of_cleared (by simpa) (by simp) (by simp) (by simp) nofun nofun⟩, s.resetTick_accesses⟩

/-- Settles O39: by `step_move` a step resets or makes a move, and each keeps the registers fitting. -/
theorem stepKeepsTheInvariant : Obligations.StepKeepsTheInvariant := by
  rintro s t ⟨hw, ⟨i, hi, hfit⟩, -⟩ h
  obtain rfl | ⟨u, hmove, rfl⟩ := step_move hi h
  · exact inv_resetTick hw
  · exact .of_endTick (hmove.sameTick.cfg ▸ hw) (hmove.registersFit hi hw hfit)

/-! ### The invariant of the pin (R36, R100, R101, R110) -/

/-- What the pin drives is read off bit PIN of OE and DOUT (R36). -/
theorem State.drives_eq_bankBit (s : State) :
    s.drives = if (s.bankBit s.cfg.pin).1 then none else some (s.bankBit s.cfg.pin).2 := rfl

theorem State.drives_of_bankBit {s : State} {n : Nat} {o d : Bool} (hn : s.cfg.pin = n) (h : s.bankBit n = (o, d)) :
    s.drives = if o then none else some d := by
  rw [State.drives_eq_bankBit, hn, h]

theorem State.bankBit_of_drives {s : State} {level : Bool} (h : s.drives = some level) :
    s.bankBit s.cfg.pin = (false, level) := by
  rw [State.drives_eq_bankBit] at h
  split at h
  · cases h
  · rename_i hoe
    exact Prod.ext (by simpa using hoe) (Option.some.inj h)

theorem State.drives_congr {s t : State} (hc : t.cfg = s.cfg) (hb : t.bankBit s.cfg.pin = s.bankBit s.cfg.pin) :
    t.drives = s.drives := by
  rw [State.drives_eq_bankBit, State.drives_eq_bankBit, hc, hb]

theorem pinFits_congr {s t : State} (h : t.drives = s.drives) (i : Instr) : pinFits t i ↔ pinFits s i := by
  simp only [pinFits, h]

theorem pinFits_of_released {i : Instr} (hi : i.released = true) (s : State) : pinFits s i ↔ s.drives = none := by
  cases i with
  | idle | driveStartLow | driveStartHigh => cases hi
  | _ => exact .rfl

/-- The pin invariant in the state of `i`. -/
theorem PinInv.pinFits {s : State} {i : Instr} (h : PinInv s) (hi : decodeStateWord s.stateReg = .instr i) :
    pinFits s i := by
  obtain ⟨j, hj, hpin⟩ := h
  cases hi.symm.trans hj
  exact hpin

/-- A move within released states leaves the pin released. -/
theorem PinInv.of_leadsTo {u : State} {i : Instr} (h : LeadsTo i u.stateReg) (hu : u.drives = none) : PinInv u := by
  obtain ⟨j, hj, -, hrel⟩ := h
  exact ⟨j, hj, (pinFits_of_released hrel u).2 hu⟩

/-- While the other masters leave bit PIN alone, a move ends with the pin as the new state word says. -/
theorem Move.pinInv {s u : State} {i : Instr} (h : Move s i u) (hi : decodeStateWord s.stateReg = .instr i)
    (hw : s.cfg.wf = true) (hk : s.othersKeepBit s.cfg.pin) (hpin : pinFits s i) : PinInv u := by
  have hmask : s.cfg.mask.getLsbD s.cfg.pin = true := by simp [Cfg.mask_getLsbD hw]
  have hread : s.afterRead.drives = s.drives := State.drives_congr (by simp [State.afterRead]) (State.afterRead_bankBit hk)
  cases h with
  | wait => exact ⟨i, hi, hpin⟩
  | start =>
    refine ⟨_, decode_driveStartLow, ?_⟩
    have hcfg := (sameTick_startAcquisition s).cfg
    exact (State.drives_of_bankBit (congrArg Cfg.pin hcfg) (State.startAcquisition_bankBit hk)).trans (by simp [hmask])
  | count => exact ⟨i, hi, hpin⟩
  | driveHigh =>
    refine ⟨_, decode_driveStartHigh, ?_⟩
    have hcfg := (sameTick_engineSetWr s s.cfg.mask).cfg
    have hlow := State.bankBit_of_drives hpin
    exact (State.drives_of_bankBit (congrArg Cfg.pin hcfg) (State.engineSetWr_bankBit hk _)).trans (by simp [hmask, hlow])
  | release =>
    refine ⟨_, decode_awaitAckLow, ?_⟩
    have hcfg := (sameTick_setDirIn s).cfg
    exact (State.drives_of_bankBit (congrArg Cfg.pin hcfg) (State.setDirIn_bankBit hk)).trans (by simp [hmask])
  | @sample b n hb =>
    exact ⟨_, (decode_readBitWord hb n).2.2, (congrArg State.drives s.readLevel_snd).trans (hread.trans hpin)⟩
  | detect hp hwf =>
    obtain ⟨hrel, hnext, -⟩ := pollOf_leadsTo hp hwf
    rw [pinFits_of_released hrel] at hpin
    exact .of_leadsTo hnext (hread.trans hpin)
  | timeOut hp hwf =>
    obtain ⟨hrel, -, hfail⟩ := pollOf_leadsTo hp hwf
    rw [pinFits_of_released hrel] at hpin
    exact .of_leadsTo hfail (hread.trans hpin)
  | miss => exact ⟨i, by simpa [State.afterRead] using hi, (pinFits_congr hread i).2 hpin⟩
  | accept => exact ⟨_, decode_success, hpin⟩
  | mismatch => exact ⟨_, decode_failedWord .checksumMismatch (b := 0#3) rfl 0#3, hpin⟩

/-- The end of a tick in which the other masters leave bit PIN alone keeps the pin. -/
theorem PinInv.of_endTick {u : State} (hk : u.othersKeepBit u.cfg.pin) (h : PinInv u) : PinInv u.endTick := by
  obtain ⟨i, hi, hpin⟩ := h
  have hend : u.endTick.drives = u.drives := State.drives_congr (by simp [State.endTick]) (State.endTick_bankBit hk)
  exact ⟨i, by simpa [State.endTick] using hi, (pinFits_congr hend i).2 hpin⟩

/-- Settles O40: by `step_move` a step resets, and IDLE asks nothing of the pin, or makes a move, during and after which
the exclusivity premise keeps the other masters off bit PIN. -/
theorem stepKeepsThePinInvariant : Obligations.StepKeepsThePinInvariant := by
  rintro s t ⟨hw, ⟨i, hi, -⟩, -⟩ hpin hex h
  have hk : s.othersKeepBit s.cfg.pin := State.othersKeepBit_of_spare (State.othersSpare_of_exclusive hex)
  obtain rfl | ⟨u, hmove, rfl⟩ := step_move hi h
  · exact ⟨.idle, by rw [s.resetTick_stateReg]; exact decode_idle, trivial⟩
  · have hu := hmove.sameTick
    refine .of_endTick ?_ (hmove.pinInv hi hw hk (hpin.pinFits hi))
    rw [hu.cfg]
    exact State.othersKeepBit_congr hu.cfg hu.tick hu.others hk

/-- Settles O38: the reset values fit IDLE, which asks nothing of the pin, and no event has happened. -/
theorem resetMeetsTheInvariant : Obligations.ResetMeetsTheInvariant := by
  have hw : State.reset.cfg.wf = true := by decide
  refine ⟨⟨hw, ⟨.idle, decode_launch _ _, .of_cleared hw rfl rfl rfl nofun nofun⟩, rfl⟩,
    ⟨.idle, decode_launch _ _, trivial⟩, nofun, .nil, nofun⟩

/-! ### Reads of the line (R36) -/

/-- From a state in which the pin may drive, the engine issues no DATAIN_RD: its accesses are OE_RDs and writes. -/
theorem Move.addsEvents_of_not_released {s u : State} {i : Instr} (h : Move s i u) (hi : i.released = false) :
    ∃ es, AddsEvents s.tick s u es ∧ ∀ e ∈ es, e.key = readKey s.cfg.offOe ∨ ∃ o, e.key = writeKey o := by
  cases h with
  | wait | count => exact ⟨_, .of_eq rfl, nofun⟩
  | start => exact ⟨_, addsEvents_startAcquisition s, by simp⟩
  | driveHigh => exact ⟨_, (addsEvents_engineSetWr s _).trans (.of_eq rfl), by simp⟩
  | release => exact ⟨_, (addsEvents_setDirIn s).trans (.of_eq rfl), by simp⟩
  | detect hp hwf | timeOut hp hwf | miss hp hwf => exact absurd (pollOf_leadsTo hp hwf).1 (by simp [hi])
  | sample | accept | mismatch => cases hi

/-- A reset tick adds no event of the engine (R157). -/
theorem addsEvents_resetTick (s : State) : AddsEvents s.tick s s.resetTick [] :=
  (AddsEvents.of_eq (t := s.resetEngine) rfl).trans ((addsEvents_endTick s.resetEngine).trans (.of_eq rfl))

/-- A tick that reads DATAIN starts in a state in which the pin drives nothing (R110). -/
theorem released_of_datainRd {s t : State} {i : Instr} (hw : s.cfg.wf = true)
    (hi : decodeStateWord s.stateReg = .instr i) (h : step s = .next t)
    (hread : ∃ e ∈ newEngineEvents s t, e.key = readKey s.cfg.offDatain) : i.released = true := by
  by_contra hrel
  rw [Bool.not_eq_true] at hrel
  obtain ⟨e, he, hkey⟩ := hread
  obtain rfl | ⟨u, hmove, rfl⟩ := step_move hi h
  · rw [(addsEvents_resetTick s).newEngineEvents_eq] at he
    cases he
  · obtain ⟨es, hes, hkeys⟩ := hmove.addsEvents_of_not_released hrel
    have hend := addsEvents_endTick u
    rw [hmove.sameTick.tick] at hend
    rw [(hes.trans hend).newEngineEvents_eq] at he
    obtain hoe | ⟨o, hwrite⟩ := hkeys e he
    · exact (Cfg.offsets_of_wf hw).1 (readKey_inj.1 (hoe.symm.trans hkey))
    · exact readKey_ne_writeKey _ _ (hkey.symm.trans hwrite)

/-- The pin drives nothing exactly while OE[PIN] = 1 (R36). -/
theorem State.drives_eq_none_iff {s : State} : s.drives = none ↔ s.oe.getLsbD s.cfg.pin = true := by
  simp [State.drives]

/-- Settles O42: the state of a tick that reads DATAIN is a released one, and the other masters' accesses before the read
leave OE as it was. -/
theorem neverReadsTheLineItDrives : Obligations.NeverReadsTheLineItDrives := by
  rintro s t ⟨hw, ⟨i, hi, -⟩, -⟩ hpin h hread
  have hrel := released_of_datainRd hw hi h hread
  have hnone : s.drives = none := (pinFits_of_released hrel s).1 (hpin.pinFits hi)
  have hoe := State.drives_eq_none_iff.1 hnone
  refine ⟨hoe, fun hex => ?_⟩
  have hbefore : s.othersBefore.oe.getLsbD s.cfg.pin = true := by rwa [State.othersBefore_oe_of_exclusive hex]
  exact ⟨hbefore, State.drives_eq_none_iff.2 (by rwa [s.othersBefore_cfg])⟩

end Sys2Proof.Machine

/-! SUPPORT. The family 20_memory.md: which accesses the engine issues in one tick, what they add to the history, and
the race of two OE writes. -/

namespace Sys2Proof

/-! ### The keys of the five accesses (R71) -/

section
variable {c : Cfg} (v : GpioWord)

theorem decodeAccess_oeRd : decodeAccess c (readKey c.offOe) v = .instr .oeRd := by
  simp [decodeAccess]

theorem decodeAccess_oeWr : decodeAccess c (writeKey c.offOe) v = .instr (.oeWr v) := by
  simp [decodeAccess]

theorem decodeAccess_datainRd (hw : c.wf = true) : decodeAccess c (readKey c.offDatain) v = .instr .datainRd := by
  obtain ⟨hoeDatain, -⟩ := Cfg.offsets_of_wf hw
  simp [decodeAccess, hoeDatain.symm]

theorem decodeAccess_clrWr (hw : c.wf = true) : decodeAccess c (writeKey c.offClr) v = .instr (.clrWr v) := by
  obtain ⟨-, hoeClr, -⟩ := Cfg.offsets_of_wf hw
  simp [decodeAccess, hoeClr.symm]

theorem decodeAccess_setWr (hw : c.wf = true) : decodeAccess c (writeKey c.offSet) v = .instr (.setWr v) := by
  obtain ⟨-, -, hoeSet, -, -, hclrSet⟩ := Cfg.offsets_of_wf hw
  simp [decodeAccess, hoeSet.symm, hclrSet.symm]

end

end Sys2Proof

namespace Sys2Proof.Machine

open Sys2Proof

/-! ### What a step can do, whatever the state word -/

/-- An instruction is selected only in a legal state (R69, R95). -/
theorem State.decode_of_selected {s : State} {j : Instr} (h : s.selected = .instr j) :
    ∃ i, decodeStateWord s.stateReg = .instr i := by
  unfold State.selected at h
  split at h
  · cases h
  · exact ⟨_, ‹_›⟩

/-- A step that answers a next state had a legal configuration (R10). -/
theorem wf_of_step {s t : State} (h : step s = .next t) : s.cfg.wf = true := by
  by_contra hw
  rw [step_of_wf_eq_false (by simpa using hw)] at h
  cases h

/-- Everything a step can do from any state word: reset, or a move of a legal state and the end of the tick (R95). -/
theorem step_cases {s t : State} (h : step s = .next t) :
    t = s.resetTick ∨ ∃ i u, Move s i u ∧ t = u.endTick := by
  obtain ⟨-, ⟨-, rfl⟩ | ⟨-, j, u, hj, -, -⟩⟩ := step_next h
  · exact .inl rfl
  · obtain ⟨i, hi⟩ := State.decode_of_selected hj
    exact (step_move hi h).imp_right fun ⟨u, hmove, ht⟩ => ⟨i, u, hmove, ht⟩

/-! ### The accesses of one tick (R52, R56, R77, R98) -/

/-- The access sequences the engine can issue in the tick of `s`, newest first. -/
inductive TickAccesses (s : State) : List BusEvent → Prop
  | none : TickAccesses s []
  /-- DATAIN_RD (R88). -/
  | read : TickAccesses s [⟨s.tick, readKey s.cfg.offDatain, s.datainWord, .engine⟩]
  /-- DRIVE.HIGH (R89). -/
  | driveHigh : TickAccesses s [⟨s.tick, writeKey s.cfg.offSet, s.cfg.mask, .engine⟩]
  /-- SETDIR.IN (R87). -/
  | release : TickAccesses s
      [⟨s.tick, writeKey s.cfg.offOe, s.othersBefore.oe ||| s.cfg.mask, .engine⟩,
       ⟨s.tick, readKey s.cfg.offOe, s.othersBefore.oe, .engine⟩]
  /-- SETDIR.OUT and DRIVE.LOW (R86, R90). -/
  | start : TickAccesses s
      [⟨s.tick, writeKey s.cfg.offClr, s.cfg.mask, .engine⟩,
       ⟨s.tick, writeKey s.cfg.offOe, s.othersBefore.oe &&& ~~~s.cfg.mask, .engine⟩,
       ⟨s.tick, readKey s.cfg.offOe, s.othersBefore.oe, .engine⟩]

theorem Move.addsEvents {s u : State} {i : Instr} (h : Move s i u) :
    ∃ es, TickAccesses s es ∧ AddsEvents s.tick s u es := by
  cases h with
  | wait | count | accept | mismatch => exact ⟨_, .none, .of_eq rfl⟩
  | start => exact ⟨_, .start, addsEvents_startAcquisition s⟩
  | driveHigh => exact ⟨_, .driveHigh, (addsEvents_engineSetWr s _).trans (.of_eq rfl)⟩
  | release => exact ⟨_, .release, (addsEvents_setDirIn s).trans (.of_eq rfl)⟩
  | sample => exact ⟨_, .read, (addsEvents_afterRead s).trans (.of_eq (by simp [State.sample]))⟩
  | detect | timeOut | miss => exact ⟨_, .read, (addsEvents_afterRead s).trans (.of_eq rfl)⟩

/-- The other masters' accesses after the engine's last one add no event of the engine. -/
theorem AddsEvents.endTick {s u : State} {es : List BusEvent} (h : AddsEvents s.tick s u es) (ht : u.tick = s.tick) :
    AddsEvents s.tick s u.endTick es :=
  h.trans (ht ▸ addsEvents_endTick u)

/-- A step adds to the history one of the access sequences of its tick. -/
theorem step_addsEvents {s t : State} (h : step s = .next t) :
    ∃ es, TickAccesses s es ∧ AddsEvents s.tick s t es := by
  obtain rfl | ⟨i, u, hmove, rfl⟩ := step_cases h
  · exact ⟨[], .none, addsEvents_resetTick s⟩
  · obtain ⟨es, hes, hadds⟩ := hmove.addsEvents
    exact ⟨es, hes, hadds.endTick hmove.sameTick.tick⟩

section
variable {s : State} {es : List BusEvent} (h : TickAccesses s es)
include h

theorem TickAccesses.length_le : es.length ≤ 3 := by cases h <;> simp

theorem TickAccesses.tick_eq : ∀ e ∈ es, e.tick = s.tick := by cases h <;> simp

/-- No sequence but the one of a single DATAIN_RD reads the line (R122). -/
theorem TickAccesses.reads_le (hw : s.cfg.wf = true) :
    (es.filter fun e => e.key == readKey s.cfg.offDatain).length ≤ 1 := by
  obtain ⟨hod, -⟩ := Cfg.offsets_of_wf hw
  cases h <;> simp [hod, (readKey_ne_writeKey _ _).symm]

/-- Every access is one of the five of R71, with the data of R73. -/
theorem TickAccesses.engineOk (hw : s.cfg.wf = true) : ∀ e ∈ es, e.engineOk s.cfg := by
  cases h <;>
    simp [BusEvent.engineOk, decodeAccess_oeRd, decodeAccess_oeWr, decodeAccess_datainRd _ hw,
      decodeAccess_clrWr _ hw, decodeAccess_setWr _ hw]

end

/-- Settles O29: a step adds one of the sequences of `TickAccesses`, of at most three accesses and one read. -/
theorem atMostThreeAccessesAndOneRead : Obligations.AtMostThreeAccessesAndOneRead := by
  intro s t h
  obtain ⟨es, hes, hadds⟩ := step_addsEvents h
  rw [hadds.newEngineEvents_eq]
  exact ⟨hes.length_le, hes.tick_eq, hes.reads_le (wf_of_step h), hadds.busHistory_eq⟩

/-! ### The history invariant (R41, R58, R73) -/

/-- Events of the current tick, the engine's among them legal, keep the history in order once the tick is past. -/
theorem HistoryInv.of_addsEvents {s t : State} {es : List BusEvent} (h : HistoryInv s)
    (hadds : AddsEvents s.tick s t es) (hok : ∀ e ∈ es, e.engineOk s.cfg) (hcfg : t.cfg = s.cfg)
    (htick : t.tick = s.tick + 1) : HistoryInv t := by
  obtain ⟨hpast, horder, hlegal⟩ := h
  obtain ⟨l, hhist, hnow, rfl⟩ := hadds
  rw [HistoryInv, hhist, hcfg, htick]
  refine ⟨fun e he => ?_, List.pairwise_append.2 ⟨?_, horder, fun e he f hf => ?_⟩, fun e he hm => ?_⟩
  · obtain hl | hs := List.mem_append.1 he
    · exact (hnow e hl).trans_lt (Nat.lt_succ_self _)
    · exact (hpast e hs).trans (Nat.lt_succ_self _)
  · exact List.pairwise_of_forall_mem_list fun e he f hf => ((hnow f hf).trans (hnow e he).symm).le
  · exact (hpast f hf).le.trans (hnow e he).ge
  · obtain hl | hs := List.mem_append.1 he
    · exact hok e (List.mem_filter.2 ⟨hl, by simp [hm]⟩)
    · exact hlegal e hs hm

/-- Settles O41: the tick's sequence of accesses is legal, and the tick is past when the step ends. -/
theorem stepKeepsTheHistoryInvariant : Obligations.StepKeepsTheHistoryInvariant := by
  intro s t _ hinv h
  obtain ⟨es, hes, hadds⟩ := step_addsEvents h
  obtain ⟨-, hstep⟩ := stepCountsOneTickAndKeepsTheConfiguration
  obtain ⟨hcfg, htick, -⟩ := hstep s t h
  exact hinv.of_addsEvents hadds (hes.engineOk (wf_of_step h)) hcfg htick

/-! ### The race of two OE writes (R60, R98, R101) -/

/-- The only access of another master in the tick is a write of `x` to OE after `slot` accesses of the engine. -/
def OnlyOeWrite (s : State) (slot : Nat) (x : GpioWord) : Prop :=
  s.others = [⟨s.tick, slot, writeKey s.cfg.offOe, x⟩]

section
variable {s : State} {slot : Nat} {x : GpioWord}

theorem OnlyOeWrite.of_sameTick {t : State} (h : OnlyOeWrite s slot x) (ht : SameTick s t) : OnlyOeWrite t slot x := by
  rw [OnlyOeWrite, ht.others, ht.tick, ht.cfg]; exact h

/-- Another master's OE_WR leaves its value in OE (R83). -/
theorem State.applyOther_oeWr_oe (n : Nat) : (s.applyOther ⟨n, slot, writeKey s.cfg.offOe, x⟩).oe = x := by
  simp [State.applyOther, decodeAccess_oeWr, State.oeWrite]

/-- The write has landed before the engine's next access if that is the access it precedes. -/
theorem OnlyOeWrite.othersBefore_oe (h : OnlyOeWrite s slot x) :
    s.othersBefore.oe = if slot = s.accesses then x else s.oe := by
  rw [State.othersBefore, show s.others = _ from h]
  split_ifs with hslot
  · simpa [hslot] using State.applyOther_oeWr_oe (s := s) s.tick
  · simp [hslot]

/-- The write lands at the end of the tick if it precedes no access of the engine. -/
theorem OnlyOeWrite.endTick_oe (h : OnlyOeWrite s slot x) :
    s.endTick.oe = if s.accesses ≤ slot then x else s.oe := by
  rw [State.endTick, State.nextTick_oe, State.othersAfter, show s.others = _ from h]
  split_ifs with hslot
  · simpa [hslot] using State.applyOther_oeWr_oe (s := s) s.tick
  · simp [hslot]

/-- SETDIR.IN writes back what its own OE_RD returned (R87). -/
theorem State.setDirIn_oe : s.setDirIn.oe = s.othersBefore.oe ||| s.cfg.mask := State.engineOeWr_oe _

theorem sameTick_setDirOut (s : State) : SameTick s s.setDirOut :=
  (sameTick_engineOeRd s).trans (sameTick_engineOeWr _ _)

/-- OE after the accesses of the start tick, by the place of the other write among the engine's three. -/
theorem OnlyOeWrite.drivenLow_oe (h : OnlyOeWrite s slot x) (hacc : s.accesses = 0) (w : StateWord) :
    (s.setDirOut.driveLow.goto w).endTick.oe =
      if slot = 0 then x &&& ~~~s.cfg.mask else if slot = 1 then s.oe &&& ~~~s.cfg.mask else x := by
  have hdir := h.of_sameTick (sameTick_setDirOut s)
  have hlow := hdir.of_sameTick ((sameTick_engineClrWr _ s.setDirOut.cfg.mask).trans (sameTick_goto _ w))
  rw [State.driveLow, hlow.endTick_oe, State.goto_oe, State.engineClrWr_oe, hdir.othersBefore_oe, State.setDirOut_oe,
    h.othersBefore_oe, ← State.driveLow, State.goto_accesses, State.driveLow_accesses, State.setDirOut_accesses, hacc]
  match slot with
  | 0 | 1 | 2 => rfl
  | n + 3 => simp

/-- OE after the accesses of the release tick, by the place of the other write around the engine's two. -/
theorem OnlyOeWrite.released_oe (h : OnlyOeWrite s slot x) (hacc : s.accesses = 0) (w : StateWord) :
    (s.setDirIn.goto w).endTick.oe =
      if slot = 0 then x ||| s.cfg.mask else if slot = 1 then s.oe ||| s.cfg.mask else x := by
  have hdir := h.of_sameTick ((sameTick_setDirIn s).trans (sameTick_goto _ w))
  rw [hdir.endTick_oe, State.goto_oe, State.setDirIn_oe, h.othersBefore_oe, State.goto_accesses,
    State.setDirIn_accesses, hacc]
  match slot with
  | 0 | 1 => rfl
  | n + 2 => simp

/-- The start tick (R97, R98). -/
theorem step_of_start {t : State} (h : step s = .next t) (hrst : s.rst = false) (hreq : s.acqReq = true)
    (hrest : restsIn s.stateReg = true) : t = s.startAcquisition.endTick := by
  obtain ⟨-, ⟨hr, -⟩ | ⟨-, j, u, hj, hu, rfl⟩⟩ := step_next h
  · simp [hrst] at hr
  · obtain ⟨i, hi⟩ := State.decode_of_selected hj
    rw [State.selected_of_decode hi, ← restsIn_of_decode hi, hrest, hreq] at hj
    cases hj
    cases (exec_acquire hrst hrest).symm.trans hu
    rfl

/-- The release tick (R101). -/
theorem step_of_release {t : State} (h : step s = .next t) (hrst : s.rst = false)
    (hi : decodeStateWord s.stateReg = .instr .driveStartHigh) (hcnt : s.cntSucc = s.cfg.tStartHigh) :
    t = (s.setDirIn.goto (plainWord 0x3#4)).endTick := by
  obtain ⟨-, ⟨hr, -⟩ | ⟨-, j, u, hj, hu, rfl⟩⟩ := step_next h
  · simp [hrst] at hr
  · cases (State.selected_of_decode hi).symm.trans hj
    cases hu
    rw [State.hold_eq, if_pos hcnt]

end

/-- Settles O31: each of the two ticks is a read-modify-write of OE, and the other write lands before its read, is
overwritten by its write, or lands after it. -/
theorem lastOeWriteWins : Obligations.LastOeWriteWins := by
  intro s t x slot hacc hrst hothers h
  refine ⟨fun hreq hrest => ?_, fun hw hcnt => ?_⟩
  · rw [step_of_start h hrst hreq hrest]
    have hcleared : OnlyOeWrite ((s.setSr 0#40).setData 0#40) slot x := hothers
    exact hcleared.drivenLow_oe hacc _
  · rw [step_of_release h hrst (hw ▸ decode_driveStartHigh) hcnt]
    have hrace : OnlyOeWrite s slot x := hothers
    exact hrace.released_oe hacc _

end Sys2Proof.Machine

/-! SUPPORT. The family 30_encoding.md: the encoder and the decoder undo each other, what a legal state word looks like,
which keys are accesses, what the model's interface does with a table word, and what the spec tells a model to
refuse. -/

namespace Sys2Proof

/-! ### Decoding what the encoder writes (R68, R71, R74) -/

/-- The decoder undoes the encoder on every well-formed instruction, under a legal configuration. -/
theorem decode_encode {c : Cfg} {i : Instr} (hc : c.wf = true) (hi : i.wf = true) :
    decode c (encode c i) = .instr i := by
  cases i with
  | idle => exact decode_idle
  | driveStartLow => exact decode_driveStartLow
  | driveStartHigh => exact decode_driveStartHigh
  | awaitAckLow => exact decode_awaitAckLow
  | awaitAckHigh => exact decode_awaitAckHigh
  | awaitAckEnd => exact decode_awaitAckEnd
  | verifyChecksum => exact decode_verifyChecksum
  | success => exact decode_success
  | readBitRise b n => exact (decode_readBitWord hi n).1
  | readBitSettle b n => exact (decode_readBitWord hi n).2.1
  | readBitFall b n => exact (decode_readBitWord hi n).2.2
  | failedNoResponse => exact decode_failedWord .noResponse (b := 0#3) rfl 0#3
  | failedStuckLow => exact decode_failedWord .stuckLow (b := 0#3) rfl 0#3
  | failedStuckHigh => exact decode_failedWord .stuckHigh (b := 0#3) rfl 0#3
  | failedBitTimeout b n => exact decode_failedWord .bitTimeout hi n
  | failedBitStuckHigh b n => exact decode_failedWord .bitStuckHigh hi n
  | failedChecksumMismatch => exact decode_failedWord .checksumMismatch (b := 0#3) rfl 0#3
  | oeRd => exact decodeAccess_oeRd _
  | datainRd => exact decodeAccess_datainRd _ hc
  | oeWr v => exact decodeAccess_oeWr v
  | clrWr v => exact decodeAccess_clrWr v hc
  | setWr v => exact decodeAccess_setWr v hc
  | acquire => rfl

/-- Settles O2: one row after the other, by what its word decodes to; only the rows of DATAIN_RD, CLR_WR and SET_WR need
that the offsets differ (log 5). -/
theorem decodeOfEncodeIsIdentity : Obligations.DecodeOfEncodeIsIdentity := fun _ _ => decode_encode

/-- Settles O1, by evaluating the decoder on the eight words. -/
theorem specWordsDecode : Obligations.SpecWordsDecode := by
  unfold Obligations.SpecWordsDecode
  decide

/-! ### The fields of a packed state word (R63) -/

/-- The number of a concatenation, as a sum instead of `BitVec.toNat_append`'s bitwise or. -/
theorem toNat_append_eq_add {m n : Nat} (x : BitVec m) (y : BitVec n) :
    (x ++ y).toNat = x.toNat * 2 ^ n + y.toNat := by
  rw [BitVec.toNat_append, ← Nat.shiftLeft_add_eq_or_of_lt y.isLt, Nat.shiftLeft_eq]

section
variable (k : BitVec 4) (r : BitVec 3) (p : BitVec 2) (b n : Index)

theorem packStateWord_toNat : (packStateWord k r p b n).toNat =
    0x1000 * k.toNat + 0x200 * r.toNat + 0x40 * p.toNat + 8 * b.toNat + n.toNat := by
  simp only [packStateWord, toNat_append_eq_add, BitVec.toNat_ofNat]
  omega

/-- A field of a packed word is read off its number. -/
theorem extractLsb'_packStateWord {start len : Nat} {x : BitVec len}
    (h : (0x1000 * k.toNat + 0x200 * r.toNat + 0x40 * p.toNat + 8 * b.toNat + n.toNat) / 2 ^ start % 2 ^ len = x.toNat) :
    (packStateWord k r p b n).extractLsb' start len = x := by
  apply BitVec.eq_of_toNat_eq
  rw [BitVec.extractLsb'_toNat, packStateWord_toNat, Nat.shiftRight_eq_div_pow, h]

@[simp] theorem kind_packStateWord : (packStateWord k r p b n).extractLsb' 12 4 = k :=
  extractLsb'_packStateWord k r p b n (by omega)

@[simp] theorem reason_packStateWord : (packStateWord k r p b n).extractLsb' 9 3 = r :=
  extractLsb'_packStateWord k r p b n (by omega)

@[simp] theorem reserved_packStateWord : (packStateWord k r p b n).extractLsb' 8 1 = 0#1 :=
  extractLsb'_packStateWord k r p b n (by simp only [BitVec.toNat_ofNat]; omega)

@[simp] theorem phase_packStateWord : (packStateWord k r p b n).extractLsb' 6 2 = p :=
  extractLsb'_packStateWord k r p b n (by omega)

@[simp] theorem byteIx_packStateWord : (packStateWord k r p b n).extractLsb' 3 3 = b :=
  extractLsb'_packStateWord k r p b n (by omega)

@[simp] theorem position_packStateWord : (packStateWord k r p b n).extractLsb' 0 6 = b ++ n :=
  extractLsb'_packStateWord k r p b n (by rw [toNat_append_eq_add]; omega)

end

/-- A word is packed from its fields if bit 8 is clear. -/
theorem eq_packStateWord {w : StateWord} (h : StateWord.reserved w = 0#1) :
    w = packStateWord (StateWord.kind w) (StateWord.reason w) (StateWord.phase w) (StateWord.byteIx w)
      (StateWord.bitIx w) := by
  apply BitVec.eq_of_toNat_eq
  have hbit := congrArg BitVec.toNat h
  simp only [StateWord.reserved, StateWord.kind, StateWord.reason, StateWord.phase, StateWord.byteIx, StateWord.bitIx,
    packStateWord_toNat, BitVec.extractLsb'_toNat, Nat.shiftRight_eq_div_pow, BitVec.toNat_ofNat] at hbit ⊢
  omega

/-- A word whose fields below KIND are 0 is a plain word. -/
theorem eq_plainWord {w : StateWord} (h : w.extractLsb' 0 12 = 0#12) : w = plainWord (StateWord.kind w) := by
  apply BitVec.eq_of_toNat_eq
  have hlow := congrArg BitVec.toNat h
  simp only [plainWord, StateWord.kind, packStateWord_toNat, BitVec.extractLsb'_toNat, Nat.shiftRight_eq_div_pow,
    BitVec.toNat_ofNat] at hlow ⊢
  omega

/-- A word whose fields below REASON are 0 is packed from KIND and REASON. -/
theorem eq_packStateWord_of_low {w : StateWord} (h : w.extractLsb' 0 9 = 0#9) :
    w = packStateWord (StateWord.kind w) (StateWord.reason w) 0#2 0#3 0#3 := by
  apply BitVec.eq_of_toNat_eq
  have hlow := congrArg BitVec.toNat h
  simp only [StateWord.kind, StateWord.reason, packStateWord_toNat, BitVec.extractLsb'_toNat, Nat.shiftRight_eq_div_pow,
    BitVec.toNat_ofNat] at hlow ⊢
  omega

/-! ### The words that decode (R67 to R69) -/

theorem byteIndexOk_iff {b : Index} : byteIndexOk b = true ↔ b < 5#3 := by
  revert b; decide

/-- The state words of R68's table: a KIND alone, READ_BIT with a phase and a position, or a failure. -/
inductive LegalWord : StateWord → Prop
  | plain {k : BitVec 4} (hle : k ≤ 8#4) (hne : k ≠ 6#4) : LegalWord (plainWord k)
  | readBit {p : BitVec 2} {b : Index} (hp : p ≠ 3#2) (hb : byteIndexOk b = true) (n : Index) :
    LegalWord (readBitWord p b n)
  | failed (k : FailKind) {b : Index} (hb : byteIndexOk b = true) (n : Index) :
    LegalWord (failedWord k b n)

section
variable {w : StateWord} {j : Instr}

theorem eq_plainWord_of_decodePlain {i : Instr} (h : decodePlain w i = .instr j) : w = plainWord (StateWord.kind w) := by
  unfold decodePlain at h
  split at h
  · exact eq_plainWord ‹_›
  · cases h

theorem legalWord_of_decodeReadBit (hk : StateWord.kind w = 6#4) (h : decodeReadBit w = .instr j) : LegalWord w := by
  unfold decodeReadBit at h
  split at h
  · cases h
  rename_i hzero
  push Not at hzero
  obtain ⟨hreason, hreserved⟩ := hzero
  split at h
  · cases h
  rename_i hphase
  split at h
  · cases h
  rename_i hb
  rw [eq_packStateWord hreserved, hk, hreason]
  exact .readBit hphase (by simpa using hb) _

theorem legalWord_of_decodeFailedPlain {i : Instr} (k : FailKind) (hi : k.indexed = false)
    (hk : StateWord.kind w = 9#4) (hr : StateWord.reason w = k.code) (h : decodeFailedPlain w i = .instr j) :
    LegalWord w := by
  unfold decodeFailedPlain at h
  split at h
  · rename_i hlow
    have hw : w = failedWord k 0#3 0#3 := by rw [eq_packStateWord_of_low hlow, hk, hr, failedWord, hi, if_neg nofun]
    exact hw ▸ .failed k rfl _
  · cases h

theorem legalWord_of_decodeFailedIndexed {i : Index → Index → Instr} (k : FailKind) (hi : k.indexed = true)
    (hk : StateWord.kind w = 9#4) (hr : StateWord.reason w = k.code) (h : decodeFailedIndexed w i = .instr j) :
    LegalWord w := by
  unfold decodeFailedIndexed at h
  split at h
  · cases h
  rename_i hzero
  push Not at hzero
  obtain ⟨hreserved, hphase⟩ := hzero
  split at h
  · cases h
  rename_i hb
  have hw : w = failedWord k (StateWord.byteIx w) (StateWord.bitIx w) := by
    rw [failedWord, if_pos hi, ← hk, ← hr, ← hphase]
    exact eq_packStateWord hreserved
  exact hw ▸ .failed k (by simpa using hb) _

theorem legalWord_of_decodeFailed (hk : StateWord.kind w = 9#4) (h : decodeFailed w = .instr j) : LegalWord w := by
  unfold decodeFailed at h
  split at h
  case h_1 hr => exact legalWord_of_decodeFailedPlain .noResponse rfl hk (BitVec.eq_of_toNat_eq hr) h
  case h_2 hr => exact legalWord_of_decodeFailedPlain .stuckLow rfl hk (BitVec.eq_of_toNat_eq hr) h
  case h_3 hr => exact legalWord_of_decodeFailedPlain .stuckHigh rfl hk (BitVec.eq_of_toNat_eq hr) h
  case h_4 hr => exact legalWord_of_decodeFailedIndexed .bitTimeout rfl hk (BitVec.eq_of_toNat_eq hr) h
  case h_5 hr => exact legalWord_of_decodeFailedIndexed .bitStuckHigh rfl hk (BitVec.eq_of_toNat_eq hr) h
  case h_6 hr => exact legalWord_of_decodeFailedPlain .checksumMismatch rfl hk (BitVec.eq_of_toNat_eq hr) h
  case h_7 => cases h

/-- Only words of the table decode. -/
theorem legalWord_of_decode (h : decodeStateWord w = .instr j) : LegalWord w := by
  unfold decodeStateWord at h
  split at h
  case h_7 hk => exact legalWord_of_decodeReadBit (BitVec.eq_of_toNat_eq hk) h
  case h_10 hk => exact legalWord_of_decodeFailed (BitVec.eq_of_toNat_eq hk) h
  case h_11 => cases h
  all_goals
    rename_i hk
    rw [eq_plainWord_of_decodePlain h]
    exact .plain (by bv_omega) (by bv_omega)

end

/-- A word of the table is the encoding of what it decodes to. -/
theorem LegalWord.encode_of_decode {w : StateWord} {i : Instr} (hw : LegalWord w) (h : decodeStateWord w = .instr i)
    (c : Cfg) : encode c i = .sw w := by
  cases hw with
  | @plain k hle hne =>
    have hk : k ∈ [0x0#4, 0x1#4, 0x2#4, 0x3#4, 0x4#4, 0x5#4, 0x7#4, 0x8#4] := by
      clear h; revert k; decide
    simp only [List.mem_cons, List.not_mem_nil, or_false] at hk
    obtain rfl | rfl | rfl | rfl | rfl | rfl | rfl | rfl := hk
    · cases decode_idle.symm.trans h; rfl
    · cases decode_driveStartLow.symm.trans h; rfl
    · cases decode_driveStartHigh.symm.trans h; rfl
    · cases decode_awaitAckLow.symm.trans h; rfl
    · cases decode_awaitAckHigh.symm.trans h; rfl
    · cases decode_awaitAckEnd.symm.trans h; rfl
    · cases decode_verifyChecksum.symm.trans h; rfl
    · cases decode_success.symm.trans h; rfl
  | @readBit p b hp hb n =>
    obtain ⟨hrise, hsettle, hfall⟩ := decode_readBitWord hb n
    have hp : p = 0#2 ∨ p = 1#2 ∨ p = 2#2 := by clear h; revert p; decide
    obtain rfl | rfl | rfl := hp
    · cases hrise.symm.trans h; rfl
    · cases hsettle.symm.trans h; rfl
    · cases hfall.symm.trans h; rfl
  | failed k hb n =>
    cases (decode_failedWord k hb n).symm.trans h
    cases k <;> rfl

/-- Settles O3: a word that decodes is one of the table, and each of these is the word its instruction encodes to. -/
theorem decodedStateWordReencodes : Obligations.DecodedStateWordReencodes := fun c _ _ h =>
  ⟨wf_of_decodeStateWord h, (legalWord_of_decode h).encode_of_decode h c⟩

theorem exists_reject {w : StateWord} (h : ¬ LegalWord w) : ∃ r, decodeStateWord w = .reject r := by
  cases hd : decodeStateWord w with
  | instr i => exact absurd (legalWord_of_decode hd) h
  | reject r => exact ⟨r, rfl⟩

/-! ### What R69 asks of the fields of a table word -/

section
variable {w : StateWord} (h : LegalWord w)
include h

theorem LegalWord.kind_lt : w.extractLsb' 12 4 < 0xA#4 := by
  cases h with
  | plain hle => rw [plainWord, kind_packStateWord]; bv_omega
  | readBit => simp [readBitWord]
  | failed k => cases k <;> simp [failedWord, FailKind.indexed]

theorem LegalWord.readBit_fields (hk : w.extractLsb' 12 4 = 6#4) :
    w.extractLsb' 6 2 ≠ 3#2 ∧ w.extractLsb' 3 3 < 5#3 := by
  cases h with
  | plain _ hne => exact absurd (by simpa [plainWord] using hk) hne
  | readBit hp hb => simpa [readBitWord, hp] using byteIndexOk_iff.1 hb
  | failed k => cases k <;> simp [failedWord, FailKind.indexed] at hk

theorem LegalWord.failed_fields (hk : w.extractLsb' 12 4 = 9#4) :
    w.extractLsb' 9 3 ≠ 0#3 ∧ w.extractLsb' 9 3 ≠ 7#3 ∧ w.extractLsb' 3 3 < 5#3 := by
  cases h with
  | plain hle => rw [plainWord, kind_packStateWord] at hk; bv_omega
  | readBit => simp [readBitWord] at hk
  | failed k hb => cases k <;> simp [failedWord, FailKind.indexed, FailKind.code, byteIndexOk_iff.1 hb]

/-- Bit 8 is 0, and so are REASON, PHASE and the position where the row has none. -/
theorem LegalWord.zero_fields :
    w.extractLsb' 8 1 = 0#1 ∧ (w.extractLsb' 12 4 ≠ 9#4 → w.extractLsb' 9 3 = 0#3) ∧
    (w.extractLsb' 12 4 ≠ 6#4 → w.extractLsb' 6 2 = 0#2) ∧
    (w.extractLsb' 12 4 ≠ 6#4 →
      ¬ (w.extractLsb' 12 4 = 9#4 ∧ (w.extractLsb' 9 3 = 4#3 ∨ w.extractLsb' 9 3 = 5#3)) →
      w.extractLsb' 0 6 = 0#6) := by
  cases h with
  | plain => simp [plainWord]
  | readBit => simp [readBitWord]
  | failed k => cases k <;> simp [failedWord, FailKind.indexed, FailKind.code]

end

/-! ### The keys of R71 -/

section
variable {key : AccessKey} {o : Offset}

theorem eq_readKey (hw : ¬ AccessKey.isWrite key = true) (ho : AccessKey.off key = o) : key = readKey o := by
  rw [AccessKey.eq_key key, if_neg hw, ho]

theorem eq_writeKey (hw : AccessKey.isWrite key = true) (ho : AccessKey.off key = o) : key = writeKey o := by
  rw [AccessKey.eq_key key, if_pos hw, ho]

end

/-- Only the five keys of R71 decode, with the write data as the operand. -/
theorem decodeAccess_cases {c : Cfg} {key : AccessKey} {v : GpioWord} {i : Instr}
    (h : decodeAccess c key v = .instr i) :
    (key = readKey c.offOe ∧ i = .oeRd) ∨ (key = readKey c.offDatain ∧ i = .datainRd) ∨
    (key = writeKey c.offOe ∧ i = .oeWr v) ∨ (key = writeKey c.offClr ∧ i = .clrWr v) ∨
    (key = writeKey c.offSet ∧ i = .setWr v) := by
  unfold decodeAccess at h
  split at h
  · rename_i hw
    split_ifs at h with hoe hclr hset <;> cases h
    · simp [eq_writeKey hw hoe]
    · simp [eq_writeKey hw hclr]
    · simp [eq_writeKey hw hset]
  · rename_i hw
    split_ifs at h with hoe hdatain <;> cases h
    · simp [eq_readKey hw hoe]
    · simp [eq_readKey hw hdatain]

/-- Settles O5: no other key decodes (`decodeAccess_cases`), and under a legal configuration each of the five names its
access. -/
theorem accessKeysAreTheFiveOfTheTable : Obligations.AccessKeysAreTheFiveOfTheTable := by
  intro c key v i hc
  refine ⟨decodeAccess_cases, ?_⟩
  rintro (⟨rfl, rfl⟩ | ⟨rfl, rfl⟩ | ⟨rfl, rfl⟩ | ⟨rfl, rfl⟩ | ⟨rfl, rfl⟩)
  · exact decodeAccess_oeRd v
  · exact decodeAccess_datainRd v hc
  · exact decodeAccess_oeWr v
  · exact decodeAccess_clrWr v hc
  · exact decodeAccess_setWr v hc

theorem decodeAccess_undescribedWrite {c : Cfg} {key : AccessKey} (v : GpioWord) (hw : AccessKey.isWrite key = true)
    (hoe : AccessKey.off key ≠ c.offOe) (hclr : AccessKey.off key ≠ c.offClr) (hset : AccessKey.off key ≠ c.offSet) :
    decodeAccess c key v = .reject .undescribedWrite := by
  simp [decodeAccess, hw, hoe, hclr, hset]

/-! ### The instructions that table words name -/

theorem wf_of_decodeAccess {c : Cfg} {key : AccessKey} {v : GpioWord} {i : Instr}
    (h : decodeAccess c key v = .instr i) : i.wf = true := by
  obtain ⟨-, rfl⟩ | ⟨-, rfl⟩ | ⟨-, rfl⟩ | ⟨-, rfl⟩ | ⟨-, rfl⟩ := decodeAccess_cases h <;> rfl

theorem wf_of_decodeHost {b : HostBit} {i : Instr} (h : decodeHost b = .instr i) : i.wf = true := by
  unfold decodeHost at h
  split at h <;> cases h
  rfl

theorem wf_of_tableWord {nbits w : Nat} {i : Instr} (h : tableWord nbits w = .instr i) : i.wf = true := by
  unfold tableWord at h
  split at h
  · split at h
    · exact wf_of_decodeHost h
    · cases h
  split at h
  · cases h
  split at h
  · rename_i j hj
    split at h
    · cases h
      exact wf_of_decodeAccess hj
    · exact wf_of_decodeStateWord h
  · split at h
    · exact wf_of_decodeStateWord h
    · cases h

theorem tableWord_of_decodeTableWord {nbits w : Nat} {i : Instr} (h : decodeTableWord nbits w = some i) :
    tableWord nbits w = .instr i := by
  unfold decodeTableWord at h
  cases ht : tableWord nbits w with
  | instr j => rw [ht] at h; cases h; rfl
  | reject r => rw [ht] at h; cases h

end Sys2Proof

namespace Sys2Proof.Machine

open Sys2Proof

/-! ### Refusals (R69, U1, U3, U7) -/

/-- Settles O21: each of the five rules runs under `withByteIndex`. -/
theorem reservedByteIndexHasNoMeaning : Obligations.ReservedByteIndexHasNoMeaning := by
  intro b i s hb
  have hok : ¬ byteIndexOk b = true := by simp only [byteIndexOk, decide_eq_true_eq]; omega
  have hrefused : ∀ t : State, withByteIndex b t = .refused .illegalStateWord := fun _ => if_neg hok
  exact ⟨hrefused _, hrefused _, hrefused _, hrefused _, hrefused _⟩

section
variable {s : State}

theorem step_of_undescribedWriteNow (hc : s.cfg.wf = true) (h : s.undescribedWriteNow = true) :
    step s = .refused .undescribedWrite := by
  simp [step, hc, h]

theorem step_of_otherDriverNow (hc : s.cfg.wf = true) (hu : s.undescribedWriteNow = false) (h : s.otherDriverNow = true) :
    step s = .refused .otherDriverOnPin := by
  simp [step, hc, hu, h]

theorem step_of_rejected {r : Reject} (ha : s.admissible = true) (hrst : s.rst = false)
    (hd : decodeStateWord s.stateReg = .reject r) : step s = .refused .illegalStateWord := by
  simp only [State.admissible, Bool.and_eq_true, Bool.not_eq_true'] at ha
  obtain ⟨⟨hc, hu⟩, hdrv⟩ := ha
  simp [step, hc, hu, hdrv, hrst, State.selected, hd]

end

/-- Settles O32: the key of such a write is undescribed, and a clear or set write with bit PIN in its data drives the
pin, in any tick of a busy engine. -/
theorem undescribedAccessesAreRefused : Obligations.UndescribedAccessesAreRefused := by
  refine ⟨fun s a hc ha ht hw hoe hclr hset => ?_, fun s a hc hu hbusy ha ht hkey hpin => ?_⟩
  · refine step_of_undescribedWriteNow hc (List.any_eq_true.2 ⟨a, ha, ?_⟩)
    simp [ht, OtherAccess.undescribedWrite, decodeAccess_undescribedWrite a.data hw hoe hclr hset]
  · have hdrives : a.drivesPin s.cfg = true := by
      unfold OtherAccess.drivesPin
      obtain hclr | hset := hkey
      · rwa [show a.key = writeKey _ from hclr, decodeAccess_clrWr _ hc]
      · rwa [show a.key = writeKey _ from hset, decodeAccess_setWr _ hc]
    have hany : (s.others.any fun a => a.tick == s.tick && a.drivesPin s.cfg) = true :=
      List.any_eq_true.2 ⟨a, ha, by simp [ht, hdrives]⟩
    exact step_of_otherDriverNow hc hu (by simp [State.otherDriverNow, State.inAcquisition, hbusy, hany])

/-! ### No step writes an illegal state word (R69) -/

/-- A move ends in a legal state word. -/
theorem Move.decodes {s u : State} {i : Instr} (h : Move s i u) (hi : decodeStateWord s.stateReg = .instr i) :
    ∃ j, decodeStateWord u.stateReg = .instr j := by
  cases h with
  | wait | count => exact ⟨i, hi⟩
  | start => exact ⟨_, decode_driveStartLow⟩
  | driveHigh => exact ⟨_, decode_driveStartHigh⟩
  | release => exact ⟨_, decode_awaitAckLow⟩
  | sample hb => exact ⟨_, (decode_readBitWord hb _).2.2⟩
  | detect hp hw =>
    obtain ⟨-, ⟨j, hj, -⟩, -⟩ := pollOf_leadsTo hp hw
    exact ⟨j, hj⟩
  | timeOut hp hw =>
    obtain ⟨-, -, j, hj, -⟩ := pollOf_leadsTo hp hw
    exact ⟨j, hj⟩
  | miss => exact ⟨i, by simpa [State.afterRead] using hi⟩
  | accept => exact ⟨_, decode_success⟩
  | mismatch => exact ⟨_, decode_failedWord .checksumMismatch (b := 0#3) rfl 0#3⟩

/-- A reset tick ends in IDLE (R157). -/
theorem decode_resetTick (s : State) : decodeStateWord s.resetTick.stateReg = .instr .idle :=
  s.resetTick_stateReg ▸ decode_idle

theorem step_decodes {s t : State} (h : step s = .next t) : ∃ i, decodeStateWord t.stateReg = .instr i := by
  obtain ⟨-, ⟨-, rfl⟩ | ⟨-, j, u, hj, -, -⟩⟩ := step_next h
  · exact ⟨.idle, decode_resetTick s⟩
  obtain ⟨i, hi⟩ := State.decode_of_selected hj
  obtain rfl | ⟨v, hmove, rfl⟩ := step_move hi h
  · exact ⟨.idle, decode_resetTick s⟩
  · simpa [State.endTick] using hmove.decodes hi

/-- Settles O4: a word that decodes is a word of the table, whose fields meet every bullet of R69; a rejected STATE
selects no instruction; and a reset or a move ends in a word that decodes. -/
theorem illegalStateWordsAreRefusedAndNeverWritten : Obligations.IllegalStateWordsAreRefusedAndNeverWritten := by
  refine ⟨fun w hkind => exists_reject fun h => ?_, fun w hkind hbad => exists_reject fun h => ?_,
    fun w hkind hbad => exists_reject fun h => ?_, fun w hbad => exists_reject fun h => ?_,
    fun s r ha hrst hd => step_of_rejected ha hrst hd, fun s t => step_decodes⟩
  · exact BitVec.not_lt.2 hkind h.kind_lt
  · obtain ⟨hphase, hbyte⟩ := h.readBit_fields hkind
    obtain hp | hb := hbad
    · exact hphase hp
    · exact BitVec.not_lt.2 hb hbyte
  · obtain ⟨hzero, hseven, hbyte⟩ := h.failed_fields hkind
    obtain hr | hr | hb := hbad
    · exact hzero hr
    · exact hseven hr
    · exact BitVec.not_lt.2 hb hbyte
  · obtain ⟨hreserved, hreason, hphase, hposition⟩ := h.zero_fields
    obtain h8 | ⟨hk, hr⟩ | ⟨hk, hp⟩ | ⟨hk, hf, hpos⟩ := hbad
    · exact h8 hreserved
    · exact hr (hreason hk)
    · exact hp (hphase hk)
    · exact hpos (hposition hk hf)

/-! ### The primitives (R77, R86 to R90) -/

/-- In a tick without other masters the engine's read leaves the bank (R82). -/
theorem State.afterRead_of_quiet {s : State} (h : s.quiet = true) :
    s.afterRead.oe = s.oe ∧ s.afterRead.dout = s.dout := by
  simp [State.afterRead, s.othersBefore_of_quiet h]

/-- Settles O27: an expansion runs the very accesses the primitive makes; in a quiet tick these change OE and DOUT under
MASK, which is one-hot at PIN. -/
theorem primitivesRunTheirExpansions : Obligations.PrimitivesRunTheirExpansions := by
  intro s
  refine ⟨fun p => by cases p <;> rfl, s.readLevel_fst, fun hq hc n _ => ?_⟩
  have hmask : s.cfg.mask.getLsbD n = decide (n = s.cfg.pin) := Cfg.mask_getLsbD hc n
  rw [s.setDirOut_of_quiet hq, s.setDirIn_of_quiet hq, s.driveHigh_of_quiet hq, s.driveLow_of_quiet hq, s.readLevel_snd]
  obtain ⟨hoe, hdout⟩ := State.afterRead_of_quiet hq
  simp only [getLsbD_and_not, BitVec.getLsbD_or, hmask, hoe, hdout]
  by_cases hn : n = s.cfg.pin <;> simp [hn]

/-! ### A table word placed for the next step (log 13) -/

theorem State.withFetchWord_eq {s : State} {nbits w : Nat} {i : Instr} (h : tableWord nbits w = .instr i) :
    s.withFetchWord nbits w = s.clearInputs.present (encode s.cfg i) := by
  simp [State.withFetchWord, h]

section
variable (s : State)

theorem State.clearInputs_quiet : s.clearInputs.quiet = true := by
  simp [State.quiet, State.clearInputs]

/-- The tick has neither `rst` nor ACQUIRE. -/
theorem State.clearInputs_gives (c : HostCommand) : (s.clearInputs.host.any fun h => h.gives s.tick c) = false := by
  simp +contextual [State.clearInputs, HostLine.gives]

theorem State.present_rst (p : Presented) : (s.clearInputs.present p).rst = false := by
  have hnone := s.clearInputs_gives .reset
  cases p with
  | sw w => exact hnone
  | bk key v => exact hnone
  | hc b =>
    unfold State.rst State.present
    dsimp only
    split_ifs
    · exact Bool.or_eq_false_iff.2 ⟨Bool.and_false _, hnone⟩
    · exact hnone

/-- A state word placed in STATE is selected. -/
theorem State.present_sw_selected {w : StateWord} {i : Instr} (h : decodeStateWord w = .instr i) :
    (s.clearInputs.present (.sw w)).selected = .instr i := by
  have hreq : (s.clearInputs.present (.sw w)).acqReq = false := s.clearInputs_gives .acquire
  rw [State.selected_of_decode (s := s.clearInputs.present (.sw w)) h, hreq, Bool.and_false, if_neg nofun]

/-- ACQUIRE placed on `acq_req` is selected: the engine rests, in the state it was in or in IDLE. -/
theorem State.present_acquire_selected {j : Instr} (h : decodeStateWord s.stateReg = .instr j) :
    (s.clearInputs.present (.hc 1#1)).selected = .instr .acquire := by
  have hreq : (s.clearInputs.present (.hc 1#1)).acqReq = true := by
    simp [State.acqReq, State.present, HostLine.gives]
  obtain ⟨k, hk, hrest⟩ :
      ∃ k, decodeStateWord (s.clearInputs.present (.hc 1#1)).stateReg = .instr k ∧ k.rests = true := by
    show ∃ k, decodeStateWord (if restsIn s.stateReg then s.stateReg else plainWord 0x0#4) = .instr k ∧ k.rests = true
    split_ifs with hr
    · exact ⟨j, h, (restsIn_of_decode h).symm.trans hr⟩
    · exact ⟨.idle, decode_idle, rfl⟩
  rw [State.selected_of_decode hk, hrest, hreq, Bool.and_true, if_pos rfl]

end

/-- Another master's access acts on OE and DOUT as the engine's own does in a tick without other masters. -/
theorem State.applyOther_bank_of_exec {s t u : State} {a : OtherAccess} {i : Instr}
    (ha : decodeAccess s.cfg a.key a.data = .instr i) (hq : s.quiet = true) (hcfg : t.cfg = s.cfg) (hoe : t.oe = s.oe)
    (hdout : t.dout = s.dout) (h : exec i s = .next u) :
    (t.applyOther a).oe = u.oe ∧ (t.applyOther a).dout = u.dout := by
  rw [← s.othersBefore_of_quiet hq] at hoe hdout
  rw [State.applyOther, hcfg, ha]
  obtain ⟨-, rfl⟩ | ⟨-, rfl⟩ | ⟨-, rfl⟩ | ⟨-, rfl⟩ | ⟨-, rfl⟩ := decodeAccess_cases ha <;> cases h
  · exact ⟨hoe, hdout⟩
  · exact ⟨hoe, hdout⟩
  · exact ⟨rfl, hdout⟩
  · exact ⟨hoe, congrArg (· &&& ~~~a.data) hdout⟩
  · exact ⟨hoe, congrArg (· ||| a.data) hdout⟩

/-- The step from an access key placed on the bus: the engine waits in IDLE, and the access happens. -/
theorem step_present_bk {s : State} {key : AccessKey} {v : GpioWord} {i : Instr} (hc : s.cfg.wf = true)
    (h : decodeAccess s.cfg key v = .instr i) :
    step (s.clearInputs.present (.bk key v)) =
      .next ((s.clearInputs.present (.bk key v)).applyOther ⟨s.tick, s.accesses, key, v⟩).nextTick := by
  set p := s.clearInputs.present (.bk key v) with hp
  have hidle : decodeStateWord p.stateReg = .instr .idle := decode_idle
  have hreq : p.acqReq = false := s.clearInputs_gives .acquire
  have hbusy : p.busy = false := State.busy_of_decode hidle
  have hundescribed : p.undescribedWriteNow = false := by
    simp +contextual [State.undescribedWriteNow, hp, State.present, State.clearInputs, OtherAccess.undescribedWrite, h]
  have hadm : p.admissible = true := by
    have hcfg : p.cfg.wf = true := hc
    simp [State.admissible, hcfg, hundescribed, State.otherDriverNow, State.inAcquisition, hbusy, hreq]
  have hsel : p.selected = .instr .idle := by rw [State.selected_of_decode hidle, hreq]; rfl
  have hexec : exec .idle p = .next p := by rw [exec_rest rfl rfl, State.rest, hreq, if_neg nofun]
  have hend : p.othersAfter = p.applyOther ⟨s.tick, s.accesses, key, v⟩ := by
    have hlast : (p.others.filter fun a => a.tick == p.tick && decide (p.accesses ≤ a.slot)) =
        [⟨s.tick, s.accesses, key, v⟩] := by
      simp +contextual [hp, State.present, State.clearInputs]
    rw [State.othersAfter, hlast]
    rfl
  rw [step_of_selected hadm (s.present_rst _) hsel hexec, State.endTick, hend]

/-- Settles O7: the word is placed as the encoding of `i` (`State.withFetchWord_eq`), which decodes to `i`
(`decode_encode`); the clauses are the three places a word can be put in. -/
theorem presentedWordRunsNext : Obligations.PresentedWordRunsNext := by
  intro s nbits w i hc hw
  have htable := tableWord_of_decodeTableWord hw
  have hdecode := decode_encode hc (wf_of_tableWord htable)
  rw [State.withFetchWord_eq htable]
  refine ⟨s.present_rst _, fun x hx => ?_, fun hi ⟨j, hj⟩ => ?_, fun key v u hkey hexec => ?_⟩
  · rw [hx] at hdecode ⊢
    exact s.present_sw_selected hdecode
  · subst hi
    exact s.present_acquire_selected hj
  · rw [hkey] at hdecode ⊢
    obtain ⟨hoe, hdout⟩ := State.applyOther_bank_of_exec (s := s.clearInputs)
      (t := s.clearInputs.present (.bk key v)) (a := ⟨s.tick, s.accesses, key, v⟩) hdecode
      s.clearInputs_quiet rfl rfl rfl hexec
    refine ⟨_, step_present_bk hc hdecode, hoe, hdout, ?_⟩
    simp [State.present, State.clearInputs, plainWord, packStateWord]

end Sys2Proof.Machine


/-! SUPPORT. The family 40_register_io.md: what the five bus accesses do to the machine, and the bits of the bank that no
step of the engine changes. -/

namespace Sys2Proof.Machine

open Sys2Proof

/-! ### The five accesses (R81 to R85) -/

/-- Settles O25: an access acts on the bank as the tick's earlier accesses left it, and those change neither the
configuration nor the tick nor the engine's access count, by which the statement writes the event. -/
theorem busAccessesActOnTheBank : Obligations.BusAccessesActOnTheBank := by
  intro s v
  refine ⟨?oeRd, congrArg Host.Outcome.next s.engineDatainRd_snd, ?oeWr, ?clrWr, ?setWr, s.line_eq_lineAt⟩
  all_goals
    rw [← s.othersBefore_cfg, ← s.othersBefore_tick, ← s.othersBefore_accesses]
    rfl

/-! ### The other pins (R92) -/

section
variable {s : State} {n : Nat} (hk : s.othersKeepBit n)
include hk

/-- A reset leaves the bank to the other masters (R31, R159). -/
theorem State.resetTick_bankBit : s.resetTick.bankBit n = s.bankBit n :=
  State.endTick_bankBit (s := s.resetEngine) hk

/-- A move changes no bit outside MASK: each write of the engine changes OE or DOUT under MASK alone (R86 to R90). -/
theorem Move.bankBit_of_mask {u : State} {i : Instr} (h : Move s i u) (hmask : s.cfg.mask.getLsbD n = false) :
    u.bankBit n = s.bankBit n := by
  cases h with
  | wait | count | accept | mismatch => rfl
  | start => rw [State.startAcquisition_bankBit hk]; simp [hmask]
  | driveHigh => exact (State.engineSetWr_bankBit hk _).trans (by simp [hmask])
  | release => exact (State.setDirIn_bankBit hk).trans (by simp [hmask])
  | sample => exact (congrArg (State.bankBit · n) s.readLevel_snd).trans (State.afterRead_bankBit hk)
  | detect | timeOut | miss => exact State.afterRead_bankBit hk

/-- A step changes no bit but PIN that the other masters leave alone. -/
theorem step_bankBit_of_ne_pin {t : State} (h : step s = .next t) (hn : n ≠ s.cfg.pin) :
    t.bankBit n = s.bankBit n := by
  obtain rfl | ⟨i, u, hmove, rfl⟩ := step_cases h
  · exact State.resetTick_bankBit hk
  · have hmask : s.cfg.mask.getLsbD n = false := by simp [Cfg.mask_getLsbD (wf_of_step h), hn]
    have hu := hmove.sameTick
    have hend : u.othersKeepBit n := State.othersKeepBit_congr hu.cfg hu.tick hu.others hk
    exact (State.endTick_bankBit hend).trans (hmove.bankBit_of_mask hk hmask)

end

/-- Settles O28: in a quiet tick the other masters leave every bit alone, and by `step_bankBit_of_ne_pin` the step changes
none but PIN. -/
theorem stepKeepsTheOtherPins : Obligations.StepKeepsTheOtherPins := fun _ _ hq h _ hn =>
  Prod.mk.inj (step_bankBit_of_ne_pin (State.othersKeepBit_of_quiet hq) h hn)

end Sys2Proof.Machine

/-! SUPPORT. The family 41_sequencer.md: the rule of each state as an instruction, what a tick's inputs can and cannot
change, and runs of ticks in which the spec refuses nothing. -/

namespace Sys2Proof.Machine

open Sys2Proof

/-! ### A step runs the move of its state (R95, R96) -/

/-- A move is what the instruction of its state answers. -/
theorem Move.exec_eq {s u : State} {i : Instr} (h : Move s i u) (hw : i.wf = true) : exec i s = .next u := by
  cases h with
  | wait hi ha => rw [exec_rest hi hw, State.rest, if_neg (by simp [ha])]
  | start hi ha => rw [exec_rest hi hw, State.rest, if_pos ha]
  | count hi hc =>
    cases i with
    | driveStartLow | driveStartHigh => exact congrArg _ (if_neg hc)
    | readBitSettle b n => exact (withByteIndex_of_ok hw _).trans (congrArg _ (if_neg hc))
    | _ => cases hi
  | driveHigh hc | release hc => exact congrArg _ (if_pos hc)
  | sample hb hc => exact (withByteIndex_of_ok hb _).trans (congrArg _ (if_pos hc))
  | detect hp _ hl => rw [exec_poll hp hw, if_pos hl]
  | timeOut hp _ hl hc => rw [exec_poll hp hw, if_neg hl, if_pos hc]
  | miss hp _ hl hc => rw [exec_poll hp hw, if_neg hl, if_neg hc]
  | accept hf => exact congrArg _ (if_pos hf)
  | mismatch hf => exact congrArg _ (if_neg (by simp [hf]))

/-- A state makes one move in a tick (R96). -/
theorem Move.unique {s u v : State} {i : Instr} (hu : Move s i u) (hv : Move s i v) (hw : i.wf = true) : u = v :=
  Host.Outcome.next.inj ((hu.exec_eq hw).symm.trans (hv.exec_eq hw))

/-- In a tick without `rst` that the spec does not refuse, the step makes the move of its state and ends the tick. -/
theorem step_of_move {s u : State} {i : Instr} (ha : s.admissible = true) (hrst : s.rst = false)
    (hi : decodeStateWord s.stateReg = .instr i) (h : Move s i u) : step s = .next u.endTick := by
  obtain ⟨v, hv, hmove⟩ := exists_move hrst hi
  cases h.unique hmove (wf_of_decodeStateWord hi)
  exact step_of_selected ha hrst (State.selected_of_decode hi) hv

/-- Everything a step without `rst` does: the move of its state and the end of the tick (R95). -/
theorem exists_move_of_step {s t : State} (h : step s = .next t) (hrst : s.rst = false) :
    ∃ i u, decodeStateWord s.stateReg = .instr i ∧ Move s i u ∧ t = u.endTick := by
  obtain ⟨ha, ⟨hr, -⟩ | ⟨-, j, -, hj, -⟩⟩ := step_next h
  · simp [hrst] at hr
  · obtain ⟨i, hi⟩ := State.decode_of_selected hj
    obtain ⟨u, -, hmove⟩ := exists_move hrst hi
    exact ⟨i, u, hi, hmove, Host.Outcome.next.inj (h.symm.trans (step_of_move ha hrst hi hmove))⟩

/-- Everything a step with `rst` does (R157). -/
theorem eq_resetTick_of_step {s t : State} (h : step s = .next t) (hrst : s.rst = true) : t = s.resetTick :=
  Host.Outcome.next.inj (h.symm.trans (step_of_rst (step_next h).1 hrst))

/-- Settles O8: a tick with `rst` resets, and in any other a legal state makes a move. -/
theorem legalStatesAlwaysStep : Obligations.LegalStatesAlwaysStep := by
  rintro s ha ⟨i, hi⟩
  cases hrst : s.rst with
  | true => exact ⟨_, step_of_rst ha hrst⟩
  | false =>
    obtain ⟨u, -, hmove⟩ := exists_move hrst hi
    exact ⟨_, step_of_move ha hrst hi hmove⟩

/-- Settles O6: the selected instruction makes a move, and the end of the tick is `State.endTick`. -/
theorem stepRunsTheSelectedInstruction : Obligations.StepRunsTheSelectedInstruction := by
  intro s i ha hrst hi
  obtain ⟨u, hu, -⟩ := exists_move hrst hi
  rw [step_of_selected ha hrst (State.selected_of_decode hi) hu, Bool.and_comm, hu]
  simp [State.endTick, State.nextTick]

/-! ### ACQUIRE and the resting states (R97 to R99, R127, R128) -/

/-- KIND decides whether a state accepts ACQUIRE (R97). -/
theorem restsIn_iff (w : StateWord) :
    restsIn w = true ↔ w.extractLsb' 12 4 = 0x0#4 ∨ w.extractLsb' 12 4 = 0x8#4 ∨ w.extractLsb' 12 4 = 0x9#4 := by
  simp [restsIn, StateWord.kind, or_assoc]

/-- Settles O12: the guard of ACQUIRE is `rst` and KIND, and under it the start of an acquisition is what
`State.startAcquisition_startsFrom` says. -/
theorem acquireStartsOnlyFromRestingStates : Obligations.AcquireStartsOnlyFromRestingStates := by
  intro s
  refine ⟨fun hrst hkind => ⟨_, exec_acquire hrst ((restsIn_iff _).2 hkind), State.startAcquisition_startsFrom⟩,
    fun hbar => congrArg _ (if_neg fun ⟨hrst, hrests⟩ => ?_)⟩
  obtain hr | ⟨h0, h8, h9⟩ := hbar
  · simp [hrst] at hr
  · obtain h | h | h := (restsIn_iff _).1 hrests
    · exact h0 h
    · exact h8 h
    · exact h9 h

/-- Settles O14: each resting instruction runs the one rule `State.rest`. -/
theorem restingStatesHoldUntilAcquire : Obligations.RestingStatesHoldUntilAcquire := by
  intro s i hi hw
  refine ⟨fun hacq => ⟨_, ?_, State.startAcquisition_startsFrom⟩, fun hacq => ?_⟩
  · rw [exec_rest hi hw, State.rest, if_pos hacq]
  · rw [exec_rest hi hw, State.rest, if_neg (by simp [hacq])]

/-! ### The start sequence and the handshake (R100, R101, R103 to R107) -/

/-- Settles O15: the moves are a count and, in the last tick of the hold, one SET_WR of MASK, which acts on the bank as
`busAccessesActOnTheBank` says. -/
theorem driveStartLowHoldsThenDrivesHigh : Obligations.DriveStartLowHoldsThenDrivesHigh := by
  refine fun s => ⟨fun hend => ?_, fun hcount => (Move.count (i := .driveStartLow) rfl hcount).exec_eq rfl⟩
  obtain ⟨-, -, -, -, hset, -⟩ := busAccessesActOnTheBank s s.cfg.mask
  rw [(Move.driveHigh hend).exec_eq rfl, State.driveHigh, Host.Outcome.next.inj hset]
  rfl

/-- What the release makes of the bits that other masters spare: bit PIN of OE is set and DOUT is kept (R101). -/
theorem State.setDirIn_bits {s : State} {n : Nat} (h : s.othersSpare n = true) :
    s.setDirIn.oe.getLsbD n = (s.oe.getLsbD n || s.cfg.mask.getLsbD n) ∧ s.setDirIn.dout.getLsbD n = s.dout.getLsbD n :=
  Prod.mk.inj (State.setDirIn_bankBit (State.othersKeepBit_of_spare h))

/-- Settles O16: the moves are a count and, in the last tick of the hold, SETDIR.IN, whose events, bits and OE are those
of `addsEvents_setDirIn`, `State.setDirIn_bits` and `State.setDirIn_oe`. -/
theorem driveStartHighHoldsThenReleases : Obligations.DriveStartHighHoldsThenReleases := by
  refine fun s => ⟨fun hend => ⟨_, (Move.release hend).exec_eq rfl, rfl, rfl, s.setDirIn_sr,
    s.setDirIn_data, s.setDirIn_cfg, s.setDirIn_tick, s.setDirIn_sinceReset, s.setDirIn_host, s.setDirIn_trace,
    s.setDirIn_others, s.setDirIn_accesses, (addsEvents_setDirIn s).busHistory_eq, fun n => State.setDirIn_bits,
    fun hex => ?_, fun hq => ?_⟩, fun hcount => (Move.count (i := .driveStartHigh) rfl hcount).exec_eq rfl⟩
  · obtain ⟨hoe, hdout⟩ := State.setDirIn_bits (State.othersSpare_of_exclusive hex)
    have hread := State.othersBefore_oe_of_exclusive hex
    refine ⟨hread, hread ▸ State.setDirIn_oe, hdout, fun hw => hoe.trans ?_⟩
    simp [Cfg.mask_getLsbD hw]
  · rw [s.setDirIn_of_quiet hq]
    rfl

/-- The states of `pollOf` poll as R103 says, with the words `pollOf` names. -/
theorem pollsFor_of_pollOf {i : Instr} {target : Bool} {next fail : StateWord}
    (hp : pollOf i = some (target, next, fail)) (hw : i.wf = true) : PollsFor i target next fail := fun _ =>
  ⟨fun hl => (Move.detect hp hw hl).exec_eq hw, fun hl hend => (Move.timeOut hp hw hl hend).exec_eq hw,
    fun hl hcount => (Move.miss hp hw hl hcount).exec_eq hw⟩

/-- Settles O17: the three handshake states are states of `pollOf`. -/
theorem handshakeStatesPoll : Obligations.HandshakeStatesPoll :=
  ⟨pollsFor_of_pollOf rfl rfl, pollsFor_of_pollOf rfl rfl, pollsFor_of_pollOf rfl rfl⟩

/-! ### No write after the release (R110) -/

/-- Outside the start pulse, and without an ACQUIRE in a resting state, the engine's accesses are DATAIN_RDs. -/
theorem Move.addsReads {s u : State} {i : Instr} (h : Move s i u) (hlow : i ≠ .driveStartLow)
    (hhigh : i ≠ .driveStartHigh) (hrest : i.rests = true → s.acqReq = false) :
    ∃ es, AddsEvents s.tick s u es ∧ ∀ e ∈ es, e.key = readKey s.cfg.offDatain := by
  cases h with
  | wait | count | accept | mismatch => exact ⟨_, .of_eq rfl, nofun⟩
  | start hi ha => simp [hrest hi] at ha
  | driveHigh => exact absurd rfl hlow
  | release => exact absurd rfl hhigh
  | sample => exact ⟨_, (addsEvents_afterRead s).trans (.of_eq (by simp [State.sample])), by simp⟩
  | detect | timeOut | miss => exact ⟨_, (addsEvents_afterRead s).trans (.of_eq rfl), by simp⟩

/-- Settles O30: a reset tick issues no access, and the other ticks are moves of `Move.addsReads`. -/
theorem noWriteAfterTheRelease : Obligations.NoWriteAfterTheRelease := by
  intro s t i h hi hlow hhigh hrest
  obtain rfl | ⟨u, hmove, rfl⟩ := step_move hi h
  · rw [(addsEvents_resetTick s).newEngineEvents_eq]
    nofun
  · obtain ⟨es, hes, hkeys⟩ := hmove.addsReads hlow hhigh hrest
    rw [(hes.endTick hmove.sameTick.tick).newEngineEvents_eq]
    exact hkeys

/-! ### What decides the engine registers (R96) -/

/-- `t` has the engine registers of `s`. -/
structure SameRegisters (s t : State) : Prop where
  stateReg : t.stateReg = s.stateReg
  cnt : t.cnt = s.cnt
  sr : t.sr = s.sr
  data : t.data = s.data

theorem SameRegisters.symm {s t : State} (h : SameRegisters s t) : SameRegisters t s :=
  ⟨h.stateReg.symm, h.cnt.symm, h.sr.symm, h.data.symm⟩

theorem SameRegisters.trans {s t u : State} (h : SameRegisters s t) (h' : SameRegisters t u) : SameRegisters s u :=
  ⟨h'.stateReg.trans h.stateReg, h'.cnt.trans h.cnt, h'.sr.trans h.sr, h'.data.trans h.data⟩

/-- The end of a tick writes no engine register (R80). -/
theorem sameRegisters_endTick (s : State) : SameRegisters s s.endTick := by constructor <;> simp [State.endTick]

/-- Two machines that move to one state word agree if they agree on SR and DATA. -/
theorem SameRegisters.of_goto {s t : State} {w : StateWord} (hsr : t.sr = s.sr) (hdata : t.data = s.data) :
    SameRegisters (s.goto w) (t.goto w) := ⟨rfl, rfl, hsr, hdata⟩

/-- `t` has all that decides what the engine registers of `s` become in a tick without `rst` (R96). -/
structure SameEngine (s t : State) : Prop extends SameRegisters s t where
  cfg : t.cfg = s.cfg
  acqReq : t.acqReq = s.acqReq
  line : t.line = s.line

theorem SameEngine.cntSucc {s t : State} (h : SameEngine s t) : t.cntSucc = s.cntSucc := by
  rw [State.cntSucc, h.cnt, h.cfg, State.cntSucc]

/-- A read of the line writes no engine register (R80, R82). -/
theorem sameRegisters_afterRead (s : State) : SameRegisters s s.afterRead := by constructor <;> simp [State.afterRead]

/-- Two engines that agree make moves that agree, whatever the bank, the history and the other masters. -/
theorem Move.exists_sameRegisters {s s' u : State} {i : Instr} (h : Move s i u) (hs : SameEngine s s') :
    ∃ u', Move s' i u' ∧ SameRegisters u u' := by
  have hcnt := hs.cntSucc
  have hread := sameRegisters_afterRead s
  have hread' := sameRegisters_afterRead s'
  have hsr : s'.afterRead.sr = s.afterRead.sr := hread'.sr.trans (hs.sr.trans hread.sr.symm)
  have hdata : s'.afterRead.data = s.afterRead.data := hread'.data.trans (hs.data.trans hread.data.symm)
  cases h with
  | wait hi ha => exact ⟨_, .wait hi (hs.acqReq.trans ha), hs.toSameRegisters⟩
  | start hi ha =>
    exact ⟨_, .start hi (hs.acqReq.trans ha), .of_goto (by simp) (by simp)⟩
  | count hi hc => exact ⟨_, .count hi (by rwa [hcnt, hs.cfg]), hs.stateReg, hcnt, hs.sr, hs.data⟩
  | driveHigh hc => exact ⟨_, .driveHigh (by rwa [hcnt, hs.cfg]), .of_goto (by simp [hs.sr]) (by simp [hs.data])⟩
  | release hc => exact ⟨_, .release (by rwa [hcnt, hs.cfg]), .of_goto (by simp [hs.sr]) (by simp [hs.data])⟩
  | sample hb hc =>
    exact ⟨_, .sample hb (by rwa [hcnt, hs.cfg]), .of_goto (by simp [hs.sr, hs.line]) (by simp [hdata])⟩
  | detect hp hw hl => exact ⟨_, .detect hp hw (hs.line.trans hl), .of_goto hsr hdata⟩
  | timeOut hp hw hl hc =>
    exact ⟨_, .timeOut hp hw (by rwa [hs.line]) (by rwa [hcnt, hs.cfg]), .of_goto hsr hdata⟩
  | miss hp hw hl hc =>
    exact ⟨_, .miss hp hw (by rwa [hs.line]) (by rwa [hcnt, hs.cfg]),
      hread'.stateReg.trans (hs.stateReg.trans hread.stateReg.symm), hcnt, hsr, hdata⟩
  | accept hf => exact ⟨_, .accept (by rwa [hs.sr]), .of_goto hs.sr hs.sr⟩
  | mismatch hf => exact ⟨_, .mismatch (by rwa [hs.sr]), .of_goto hs.sr hs.data⟩

/-- Settles O34: with `rst` both steps leave the reset values, and otherwise both make the move of one state word, which
`Move.exists_sameRegisters` matches. -/
theorem engineDependsOnlyOnItsInputs : Obligations.EngineDependsOnlyOnItsInputs := by
  intro s s' t t' hcfg hstate hcnt hsr hdata hrst hacq hline h h'
  have hs : SameEngine s s' := ⟨⟨hstate.symm, hcnt.symm, hsr.symm, hdata.symm⟩, hcfg.symm, hacq.symm, hline.symm⟩
  cases hr : s.rst with
  | true =>
    rw [eq_resetTick_of_step h hr, eq_resetTick_of_step h' (hrst ▸ hr)]
    simp
  | false =>
    obtain ⟨i, u, hi, hmove, rfl⟩ := exists_move_of_step h hr
    obtain ⟨u', hmove', hu⟩ := hmove.exists_sameRegisters hs
    cases h'.symm.trans (step_of_move (step_next h').1 (hrst ▸ hr) (hstate ▸ hi) hmove')
    obtain ⟨hstate, hcnt, hsr, hdata⟩ :=
      (sameRegisters_endTick u').symm.trans (hu.symm.trans (sameRegisters_endTick u))
    exact ⟨hstate, hcnt, hsr, hdata⟩

/-! ### A busy engine does not see the host's ACQUIREs (R102) -/

/-- `s` under another schedule of the host. -/
def State.setHost (s : State) (l : List HostLine) : State := { s with host := l }

section
variable (s : State) (l : List HostLine)

theorem State.applyOther_setHost (a : OtherAccess) : (s.setHost l).applyOther a = (s.applyOther a).setHost l := by
  unfold State.applyOther
  rw [show (s.setHost l).cfg = s.cfg from rfl]
  generalize decodeAccess s.cfg a.key a.data = d
  cases d with
  | instr i => cases i <;> rfl
  | reject r => cases r <;> rfl

theorem State.applyOthers_setHost (as : List OtherAccess) :
    as.foldl State.applyOther (s.setHost l) = (as.foldl State.applyOther s).setHost l := by
  induction as generalizing s with
  | nil => rfl
  | cons a as ih => rw [List.foldl_cons, List.foldl_cons, State.applyOther_setHost, ih]

theorem State.othersBefore_setHost : (s.setHost l).othersBefore = s.othersBefore.setHost l := s.applyOthers_setHost l _

theorem State.endTick_setHost : (s.setHost l).endTick = s.endTick.setHost l :=
  congrArg State.nextTick (s.applyOthers_setHost l _)

theorem State.goto_setHost (w : StateWord) : (s.setHost l).goto w = (s.goto w).setHost l := rfl

theorem State.setCnt_setHost (n : Nat) : (s.setHost l).setCnt n = (s.setCnt n).setHost l := rfl

theorem State.afterRead_setHost : (s.setHost l).afterRead = s.afterRead.setHost l := by
  unfold State.afterRead
  rw [State.othersBefore_setHost]
  rfl

theorem State.engineOeRd_setHost :
    (s.setHost l).engineOeRd = (s.engineOeRd.1, s.engineOeRd.2.setHost l) := by
  unfold State.engineOeRd
  rw [State.othersBefore_setHost]
  rfl

theorem State.engineOeWr_setHost (v : GpioWord) : (s.setHost l).engineOeWr v = (s.engineOeWr v).setHost l := by
  unfold State.engineOeWr
  rw [State.othersBefore_setHost]
  rfl

theorem State.driveHigh_setHost : (s.setHost l).driveHigh = s.driveHigh.setHost l := by
  unfold State.driveHigh State.engineSetWr
  rw [State.othersBefore_setHost]
  rfl

theorem State.setDirIn_setHost : (s.setHost l).setDirIn = s.setDirIn.setHost l := by
  unfold State.setDirIn
  rw [State.engineOeRd_setHost]
  exact State.engineOeWr_setHost _ _ _

theorem State.sample_setHost (b n : Index) : (s.setHost l).sample b n = (s.sample b n).setHost l := by
  unfold State.sample
  rw [State.readLevel_fst, State.readLevel_snd, State.readLevel_fst, State.readLevel_snd, State.afterRead_setHost]
  rfl

end

/-- A busy engine makes the same move under every schedule of the host. -/
theorem Move.setHost {s u : State} {i : Instr} (h : Move s i u) (hi : i.rests = false) (l : List HostLine) :
    Move (s.setHost l) i (u.setHost l) := by
  cases h with
  | wait hr | start hr => simp [hi] at hr
  | count hh hc => exact .count (s := s.setHost l) hh hc
  | driveHigh hc =>
    rw [← State.goto_setHost, ← State.driveHigh_setHost]
    exact .driveHigh (s := s.setHost l) hc
  | release hc =>
    rw [← State.goto_setHost, ← State.setDirIn_setHost]
    exact .release (s := s.setHost l) hc
  | sample hb hc => exact s.sample_setHost l _ _ ▸ .sample (s := s.setHost l) hb hc
  | detect hp hw hl =>
    rw [← State.goto_setHost, ← State.afterRead_setHost]
    exact .detect (s := s.setHost l) hp hw hl
  | timeOut hp hw hl hc =>
    rw [← State.goto_setHost, ← State.afterRead_setHost]
    exact .timeOut (s := s.setHost l) hp hw hl hc
  | miss hp hw hl hc =>
    rw [← State.setCnt_setHost, ← State.afterRead_setHost]
    exact .miss (s := s.setHost l) hp hw hl hc
  | accept hf => exact .accept (s := s.setHost l) hf
  | mismatch hf => exact .mismatch (s := s.setHost l) hf

/-- What a tick that is not admissible is refused for (R10, U3, U7). -/
theorem step_of_not_admissible {s : State} (ha : s.admissible = false) :
    step s = .refused (if s.cfg.wf = false then .illFormedConfig
      else if s.undescribedWriteNow then .undescribedWrite else .otherDriverOnPin) := by
  unfold step
  split_ifs with hw hu hd hr
  · rfl
  · rfl
  · rfl
  all_goals simp [State.admissible, hw, hu, hd] at ha

/-- Whether a tick of a busy engine is refused for its bus does not depend on the host. -/
theorem State.otherDriverNow_setHost {s : State} (hbusy : s.busy = true) (l : List HostLine) :
    (s.setHost l).otherDriverNow = s.otherDriverNow := by
  have hbusy' : (s.setHost l).busy = true := hbusy
  simp only [State.otherDriverNow, State.inAcquisition, hbusy, hbusy', Bool.true_or]
  rfl

/-- Settles O13: a tick that is refused, or whose STATE is illegal, is refused alike under both schedules, and otherwise
`Move.setHost` gives the one move under both. -/
theorem acquireWhileBusyIsIgnored : Obligations.AcquireWhileBusyIsIgnored := by
  intro s l hbusy hrst (hrst' : (s.setHost l).rst = false)
  show step (s.setHost l) = _
  have hadm : (s.setHost l).admissible = s.admissible := by
    rw [State.admissible, State.otherDriverNow_setHost hbusy]
    rfl
  cases ha : s.admissible with
  | false =>
    rw [step_of_not_admissible ha, step_of_not_admissible (hadm.trans ha)]
    rfl
  | true =>
    cases hd : decodeStateWord s.stateReg with
    | reject r =>
      rw [step_of_rejected ha hrst hd, step_of_rejected (hadm.trans ha) hrst' hd]
    | instr i =>
      have hi : i.rests = false := by simpa [State.busy_of_decode hd] using hbusy
      obtain ⟨u, -, hmove⟩ := exists_move_of_busy hd hi
      rw [step_of_move ha hrst hd hmove, step_of_move (hadm.trans ha) hrst' hd (hmove.setHost hi l),
        State.endTick_setHost]
      rfl

/-! ### Runs in which the spec refuses nothing -/

/-- `t` stands `n` ticks after `s`, under the same configuration and inputs. -/
structure LaterBy (s : State) (n : Nat) (t : State) : Prop where
  cfg : t.cfg = s.cfg
  tick : t.tick = s.tick + n
  host : t.host = s.host
  trace : t.trace = s.trace
  others : t.others = s.others

theorem LaterBy.of_run {n : Nat} {s t : State} (h : runTicks n s = .next t) : LaterBy s n t := by
  induction n generalizing s with
  | zero => cases h; exact ⟨rfl, rfl, rfl, rfl, rfl⟩
  | succ n ih =>
    obtain ⟨u, hu, hrun⟩ := runTicks_succ.1 h
    obtain ⟨-, hstep⟩ := stepCountsOneTickAndKeepsTheConfiguration
    obtain ⟨hcfg, htick, -, -, hhost, htrace, hothers⟩ := hstep s u hu
    obtain ⟨hcfg', htick', hhost', htrace', hothers'⟩ := ih hrun
    exact ⟨hcfg'.trans hcfg, by omega, hhost'.trans hhost, htrace'.trans htrace, hothers'.trans hothers⟩

/-- A step at the end of a run. -/
theorem runTicks_snoc {n : Nat} {s t u : State} (h : runTicks n s = .next t) (hu : step t = .next u) :
    runTicks (n + 1) s = .next u := by
  induction n generalizing s with
  | zero => cases h; exact runTicks_succ.2 ⟨u, hu, rfl⟩
  | succ n ih =>
    obtain ⟨v, hv, hrun⟩ := runTicks_succ.1 h
    exact runTicks_succ.2 ⟨v, hv, ih hrun⟩

/-- `t` is reached from `s` in `n` ticks, and its tick has no `rst` and is not refused. -/
structure CalmTick (s : State) (n : Nat) (t : State) : Prop where
  run : runTicks n s = .next t
  admissible : t.admissible = true
  noReset : t.rst = false

section
variable {s t : State} {n N : Nat}

/-- The level a later tick reads is the one the trace gives to it (R54). -/
theorem LaterBy.line (h : LaterBy s n t) : t.line = s.lineAt (s.tick + n) := by
  rw [t.line_eq_lineAt, State.lineAt, State.lineAt, h.trace, h.cfg, h.tick]

/-- In a later tick CNT counts without wrapping below 2^CNT_W (R23). -/
theorem LaterBy.cntSucc (h : LaterBy s n t) {k : Nat} (hcnt : t.cnt = k) (hk : k + 1 < 2 ^ s.cfg.cntW) :
    t.cntSucc = k + 1 := by
  rw [t.cntSucc_of_lt (by rwa [hcnt, h.cfg]), hcnt]

theorem CalmTick.later (h : CalmTick s n t) : LaterBy s n t := .of_run h.run

/-- Within a calm window no access of the tick is refused (U3, U7). -/
theorem LaterBy.other_of_calm (h : LaterBy s n t) (hcalm : s.calm N) (hn : n < N) {a : OtherAccess} (ha : a ∈ t.others)
    (ht : a.tick = t.tick) : a.undescribedWrite t.cfg = false ∧ a.drivesPin t.cfg = false := by
  obtain ⟨-, hothers⟩ := hcalm
  obtain hout | hok := hothers a (h.others ▸ ha)
  · have := h.tick
    omega
  · rwa [h.cfg]

/-- A run within a calm window ends in a calm tick. -/
theorem CalmTick.of_run (hw : s.cfg.wf = true) (hcalm : s.calm N) (hn : n < N) (h : runTicks n s = .next t) :
    CalmTick s n t := by
  have hlater := LaterBy.of_run h
  have hothers := fun a ha ht => hlater.other_of_calm (a := a) hcalm hn ha ht
  have hund : t.undescribedWriteNow = false := by
    simpa [State.undescribedWriteNow] using fun a ha ht => (hothers a ha ht).1
  have hdrives : (t.others.any fun a => a.tick == t.tick && a.drivesPin t.cfg) = false := by
    simpa using fun a ha ht => (hothers a ha ht).2
  have hdriver : t.otherDriverNow = false := by rw [State.otherDriverNow, hdrives, Bool.and_false]
  refine ⟨h, by simp [State.admissible, hlater.cfg, hw, hund, hdriver], ?_⟩
  refine List.any_eq_false.2 fun l hl => ?_
  obtain ⟨hhost, -⟩ := hcalm
  have hout := hhost l (hlater.host ▸ hl)
  have htick := hlater.tick
  simp only [HostLine.gives, Bool.and_eq_true, beq_iff_eq, not_and]
  intro hnow hreset
  have := hout hreset
  omega

/-- The induction over a calm window: what holds after `m` ticks and is kept by every tick up to `k` holds after `k`. -/
theorem exists_run {m k : Nat} {P : Nat → State → Prop} (hw : s.cfg.wf = true) (hcalm : s.calm N) (hmk : m ≤ k)
    (hk : k ≤ N) (hm : ∃ t, runTicks m s = .next t ∧ P m t)
    (hstep : ∀ n t, n < k → CalmTick s n t → P n t → ∃ u, step t = .next u ∧ P (n + 1) u) :
    ∃ t, runTicks k s = .next t ∧ P k t := by
  induction k, hmk using Nat.le_induction with
  | base => exact hm
  | succ k hmk ih =>
    obtain ⟨t, ht, hP⟩ := ih (by omega) fun n t hn => hstep n t (by omega)
    obtain ⟨u, hu, hPu⟩ := hstep k t (by omega) (.of_run hw hcalm (by omega) ht) hP
    exact ⟨u, runTicks_snoc ht hu, hPu⟩

end

/-! ### A poll (R103, R104) -/

section
variable {s t : State} {i : Instr} {target : Bool} {next fail : StateWord}
  (hp : pollOf i = some (target, next, fail)) (hw : s.cfg.wf = true) (hi : decodeStateWord s.stateReg = .instr i)

include hi in
/-- A tick that moves on from the state of `i`: STATE takes the new word, CNT is 0, and SR and DATA stay. -/
theorem CalmTick.exists_run_goto {k : Nat} (h : CalmTick s k t) (hregs : SameRegisters (s.setCnt k) t) {w : StateWord}
    (hmove : Move t i (t.afterRead.goto w)) :
    ∃ u, runTicks (k + 1) s = .next u ∧ u.stateReg = w ∧ u.cnt = 0 ∧ u.tick = s.tick + (k + 1) ∧ u.sr = s.sr ∧
      u.data = s.data := by
  have hrun := runTicks_snoc h.run (step_of_move h.admissible h.noReset (hregs.stateReg ▸ hi) hmove)
  have hread := sameRegisters_afterRead t
  have hend := sameRegisters_endTick (t.afterRead.goto w)
  exact ⟨_, hrun, hend.stateReg, hend.cnt, (LaterBy.of_run hrun).tick, hend.sr.trans (hread.sr.trans hregs.sr),
    hend.data.trans (hread.data.trans hregs.data)⟩

include hp hw hi in
/-- Misses before the last permitted read only count. -/
theorem exists_run_of_misses {k N : Nat} (hcnt : s.cnt = 0) (hcalm : s.calm N) (hk : k ≤ N)
    (hbound : k < s.cfg.pollBound) (hmiss : ∀ j, j < k → s.lineAt (s.tick + j) ≠ target) :
    ∃ t, runTicks k s = .next t ∧ SameRegisters (s.setCnt k) t := by
  refine exists_run (P := fun n => SameRegisters (s.setCnt n)) hw hcalm (Nat.zero_le k) hk
    ⟨s, rfl, rfl, hcnt, rfl, rfl⟩ fun n t hn ht hregs => ?_
  have hbounds := Cfg.bounds_of_wf hw
  have hsucc := ht.later.cntSucc (k := n) hregs.cnt (by omega)
  have hline : t.line ≠ target := by rw [ht.later.line]; exact hmiss n hn
  have hmove := Move.miss hp (wf_of_decodeStateWord hi) hline (by rw [hsucc, ht.later.cfg]; omega)
  refine ⟨_, step_of_move ht.admissible ht.noReset (hregs.stateReg ▸ hi) hmove, ?_⟩
  have hread := hregs.trans (sameRegisters_afterRead t)
  have hcount : SameRegisters (s.setCnt (n + 1)) (t.afterRead.setCnt t.cntSucc) :=
    ⟨hread.stateReg, hsucc, hread.sr, hread.data⟩
  exact hcount.trans (sameRegisters_endTick _)

end

/-- Settles O43: the misses count (`exists_run_of_misses`), and the tick after them detects the target or is the
`POLL_BOUND`-th miss. -/
theorem pollBoundsAreExact : Obligations.PollBoundsAreExact := by
  intro i target next fail s hp hw hi hcnt hcalm
  have hiw := wf_of_decodeStateWord hi
  refine ⟨fun k hk hmiss hhit => ?_, fun hmiss => ?_⟩
  · obtain ⟨t, hrun, hregs⟩ := exists_run_of_misses hp hw hi hcnt hcalm hk.le hk hmiss
    have ht := CalmTick.of_run hw hcalm hk hrun
    exact ht.exists_run_goto hi hregs (.detect hp hiw (ht.later.line.trans hhit))
  · have hbounds := Cfg.bounds_of_wf hw
    obtain ⟨k, hk⟩ : ∃ k, s.cfg.pollBound = k + 1 := ⟨s.cfg.pollBound - 1, by omega⟩
    obtain ⟨t, hrun, hregs⟩ := exists_run_of_misses (k := k) hp hw hi hcnt hcalm (by omega) (by omega) fun j hj =>
      hmiss j (by omega)
    have ht := CalmTick.of_run hw hcalm (by omega) hrun
    have hsucc := ht.later.cntSucc (k := k) hregs.cnt (by omega)
    have hline : t.line ≠ target := by rw [ht.later.line]; exact hmiss k (by omega)
    rw [hk]
    exact ht.exists_run_goto hi hregs (.timeOut hp hiw hline (by rw [hsucc, ht.later.cfg, hk]))

/-! ### The tick that accepts an ACQUIRE (R97, R98) -/

section
variable {s : State} (hw : s.cfg.wf = true)
include hw

/-- The start of an acquisition clears the registers, which fit DRIVE_START_LOW. -/
theorem inv_startTick : Inv s.startAcquisition.endTick := by
  have hcfg := (sameTick_startAcquisition s).cfg
  exact .of_endTick (hcfg ▸ hw) ⟨_, decode_driveStartLow, .of_cleared (hcfg ▸ hw) rfl
    (by simp [State.startAcquisition]) (by simp [State.startAcquisition]) nofun nofun⟩

/-- The start of an acquisition leaves the pin driven low, if the other masters leave bit PIN alone. -/
theorem pinInv_startTick (hk : s.othersKeepBit s.cfg.pin) : PinInv s.startAcquisition.endTick := by
  have hsame := sameTick_startAcquisition s
  have hlow : s.startAcquisition.drives = some false :=
    (State.drives_of_bankBit (congrArg Cfg.pin hsame.cfg) (State.startAcquisition_bankBit hk)).trans
      (by simp [Cfg.mask_getLsbD hw])
  refine .of_endTick ?_ ⟨_, decode_driveStartLow, hlow⟩
  rw [hsame.cfg]
  exact State.othersKeepBit_congr hsame.cfg hsame.tick hsame.others hk

end

/-- An accepted ACQUIRE, in a tick the spec does not refuse, starts an acquisition. -/
theorem step_startTick {s : State} {i : Instr} (ha : s.admissible = true) (hrst : s.rst = false)
    (hi : decodeStateWord s.stateReg = .instr i) (hrest : restsIn s.stateReg = true) (hacq : s.acqReq = true) :
    step s = .next s.startAcquisition.endTick :=
  step_of_move ha hrst hi (.start ((restsIn_of_decode hi).symm.trans hrest) hacq)

/-! ### The start pulse (R98, R100, R101) -/

/-- Where the start pulse is `m` ticks after the tick of the ACQUIRE began: the low hold, the high hold, the release. -/
inductive InPulse (c : Cfg) : Nat → State → Prop
  | low {k : Nat} {t : State} (hk : k < c.tStartLow) (hi : decodeStateWord t.stateReg = .instr .driveStartLow)
    (hcnt : t.cnt = k) : InPulse c (k + 1) t
  | high {k : Nat} {t : State} (hk : k < c.tStartHigh) (hi : decodeStateWord t.stateReg = .instr .driveStartHigh)
    (hcnt : t.cnt = k) : InPulse c (c.tStartLow + k + 1) t
  | released {t : State} (hi : decodeStateWord t.stateReg = .instr .awaitAckLow) :
    InPulse c (c.tStartLow + c.tStartHigh + 1) t

section
variable {s t : State} {m : Nat}

/-- The end of a tick writes neither STATE nor CNT. -/
theorem InPulse.of_endTick (h : InPulse s.cfg m t) : InPulse s.cfg m t.endTick := by
  have hend := sameRegisters_endTick t
  cases h with
  | low hk hi hcnt => exact .low hk (hend.stateReg ▸ hi) (hend.cnt.trans hcnt)
  | high hk hi hcnt => exact .high hk (hend.stateReg ▸ hi) (hend.cnt.trans hcnt)
  | released hi => exact .released (hend.stateReg ▸ hi)

/-- A calm tick before the release moves the pulse on by one tick. -/
theorem InPulse.step (h : InPulse s.cfg m t) (hm : m < s.cfg.tStartLow + s.cfg.tStartHigh + 1) (ht : CalmTick s m t)
    (hw : s.cfg.wf = true) : ∃ u, Machine.step t = .next u ∧ InPulse s.cfg (m + 1) u := by
  have hcfg := ht.later.cfg
  have hbounds := Cfg.bounds_of_wf hw
  have hgo := fun {u i} hi (hmove : Move t i u) => step_of_move ht.admissible ht.noReset hi hmove
  cases h with
  | @low k _ hk hi hcnt =>
    have hc := ht.later.cntSucc hcnt (by omega)
    by_cases hend : k + 1 = s.cfg.tStartLow
    · refine ⟨_, hgo hi (.driveHigh (by rw [hc, hcfg, hend])), .of_endTick ?_⟩
      rw [hend]
      exact .high (k := 0) (by omega) decode_driveStartHigh rfl
    · exact ⟨_, hgo hi (.count rfl (by rw [hc, hcfg]; exact hend)), .of_endTick (.low (by omega) hi hc)⟩
  | @high k _ hk hi hcnt =>
    have hc := ht.later.cntSucc hcnt (by omega)
    by_cases hend : k + 1 = s.cfg.tStartHigh
    · refine ⟨_, hgo hi (.release (by rw [hc, hcfg, hend])), .of_endTick ?_⟩
      show InPulse s.cfg (s.cfg.tStartLow + (k + 1) + 1) _
      rw [hend]
      exact .released decode_awaitAckLow
    · exact ⟨_, hgo hi (.count rfl (by rw [hc, hcfg]; exact hend)),
        .of_endTick (.high (k := k + 1) (by omega) hi hc)⟩
  | released => omega

/-- What the pin drives in each part of the pulse (R36). -/
theorem InPulse.drives_eq {n : Nat} (h : InPulse s.cfg (n + 1) t) (hpin : PinInv t) :
    t.drives = if n < s.cfg.tStartLow then some false
      else if n < s.cfg.tStartLow + s.cfg.tStartHigh then some true else none := by
  generalize hm : n + 1 = m at h
  cases h with
  | low hk hi =>
    rw [if_pos (by omega)]
    exact hpin.pinFits hi
  | high hk hi =>
    rw [if_neg (by omega), if_pos (by omega)]
    exact hpin.pinFits hi
  | released hi =>
    rw [if_neg (by omega), if_neg (by omega)]
    exact hpin.pinFits hi

/-- In a calm window in which no other master writes OE, the exclusivity premise of R166 holds in every tick. -/
theorem LaterBy.exclusive {N : Nat} (h : LaterBy s m t) (hcalm : s.calm N) (hm : m < N)
    (hoe : ∀ a ∈ s.others, a.tick = t.tick → a.key ≠ writeKey s.cfg.offOe) : t.exclusive = true := by
  refine List.all_eq_true.2 fun a ha => ?_
  by_cases ht : a.tick = t.tick
  · have hkey := hoe a (h.others ▸ ha) ht
    have hoff : AccessKey.isWrite a.key = true → AccessKey.off a.key ≠ t.cfg.offOe := fun hwr ho =>
      hkey (h.cfg ▸ eq_writeKey hwr ho)
    obtain ⟨-, hdrives⟩ := h.other_of_calm hcalm hm ha ht
    cases hwr : AccessKey.isWrite a.key with
    | false => simp [hdrives]
    | true => simp [hoff hwr, hdrives]
  · simp [ht]

end

/-- Settles O44: from the start tick on, the two invariants and the place in the pulse are kept by every tick of the
window, whose exclusivity the premises give. -/
theorem startPulseHasTheExactWidths : Obligations.StartPulseHasTheExactWidths := by
  rintro s hw ⟨i, hi⟩ hrest hacq hcalm hoe n hn
  have hexcl : ∀ {m t}, m < s.cfg.tStartLow + s.cfg.tStartHigh + 1 → LaterBy s m t → t.exclusive = true := by
    refine fun hm hl => hl.exclusive hcalm hm fun a ha ht => ?_
    have htick := hl.tick
    exact hoe a ha (by omega) (by omega)
  have hbounds := Cfg.bounds_of_wf hw
  have hstart := CalmTick.of_run hw hcalm (by omega) (runTicks_zero s)
  have hstep := step_startTick hstart.admissible hstart.noReset hi hrest hacq
  have hk := State.othersKeepBit_of_spare (State.othersSpare_of_exclusive (hexcl (by omega) hstart.later))
  have hfirst : InPulse s.cfg (0 + 1) s.startAcquisition := .low (by omega) decode_driveStartLow rfl
  obtain ⟨t, hrun, -, hpin, hpulse⟩ := exists_run (m := 0 + 1) (k := n + 1)
    (P := fun m t => Inv t ∧ PinInv t ∧ InPulse s.cfg m t) hw hcalm (by omega) (by omega)
    ⟨_, runTicks_snoc hstart.run hstep, inv_startTick hw, pinInv_startTick hw hk, hfirst.of_endTick⟩
    fun m t hm ht ⟨hinv, hpin, hpulse⟩ => by
      obtain ⟨u, hu, hnext⟩ := hpulse.step (by omega) ht hw
      exact ⟨u, hu, stepKeepsTheInvariant t u hinv hu,
        stepKeepsThePinInvariant t u hinv hpin (hexcl (by omega) ht.later) hu, hnext⟩
  exact ⟨t, hrun, hpulse.drives_eq hpin⟩

/-! ### How long an acquisition can still take (R111, R120, R174) -/

/-- The most ticks an acquisition can still take after it leaves the state of `i`. -/
def ticksAfter (c : Cfg) : Instr → Nat
  | .driveStartLow => c.tStartHigh + 3 * c.pollBound + 40 * bitTicks c + 1
  | .driveStartHigh => 3 * c.pollBound + 40 * bitTicks c + 1
  | .awaitAckLow => 2 * c.pollBound + 40 * bitTicks c + 1
  | .awaitAckHigh => c.pollBound + 40 * bitTicks c + 1
  | .awaitAckEnd => 40 * bitTicks c + 1
  | .readBitRise b n => (39 - (8 * b.toNat + n.toNat)) * bitTicks c + c.pollBound + c.tSettle + 1
  | .readBitSettle b n => (39 - (8 * b.toNat + n.toNat)) * bitTicks c + c.pollBound + 1
  | .readBitFall b n => (39 - (8 * b.toNat + n.toNat)) * bitTicks c + 1
  | _ => 0

/-- A state word that ends an acquisition: SUCCESS or FAILED (R111). -/
def Ends (w : StateWord) : Prop := ∃ j, decodeStateWord w = .instr j ∧ j.rests = true ∧ j ≠ .idle

/-- A state word of an acquisition that, entered with CNT 0, takes no longer than what is left after the state of `i`. -/
def Follows (c : Cfg) (i : Instr) (w : StateWord) : Prop :=
  ∃ j, decodeStateWord w = .instr j ∧ j.rests = false ∧ ticksAfter c j + cntBound c j ≤ ticksAfter c i

theorem Ends.done {s : State} (h : Ends s.stateReg) : s.done = true := by
  obtain ⟨j, hj, hrest, hidle⟩ := h
  rw [State.done_of_decode hj, hrest, decide_eq_true hidle, Bool.and_true]

theorem ends_failedWord (k : FailKind) {b : Index} (hb : byteIndexOk b = true) (n : Index) : Ends (failedWord k b n) :=
  ⟨_, decode_failedWord k hb n, by cases k <;> rfl, by cases k <;> nofun⟩

/-- A failing poll ends the acquisition (R103). -/
theorem ends_of_pollOf {i : Instr} {target : Bool} {next fail : StateWord} (hp : pollOf i = some (target, next, fail))
    (hw : i.wf = true) : Ends fail := by
  cases i with
  | awaitAckLow => cases hp; exact ends_failedWord .noResponse (b := 0#3) rfl 0#3
  | awaitAckHigh => cases hp; exact ends_failedWord .stuckLow (b := 0#3) rfl 0#3
  | awaitAckEnd => cases hp; exact ends_failedWord .stuckHigh (b := 0#3) rfl 0#3
  | readBitRise b n => cases hp; exact failedWord_bitTimeout_eq b n ▸ ends_failedWord .bitTimeout hw n
  | readBitFall b n => cases hp; exact failedWord_bitStuckHigh_eq b n ▸ ends_failedWord .bitStuckHigh hw n
  | _ => cases hp

/-- The next bit takes one `bitTicks` less to the end of the frame (R118, R120). -/
theorem follows_nextBit (c : Cfg) {b : Index} (hb : byteIndexOk b = true) (n : Index) :
    Follows c (.readBitFall b n) (nextBit b n) := by
  refine ⟨_, decode_nextBit hb n, by split_ifs <;> rfl, ?_⟩
  have hb4 : b.toNat ≤ 4 := of_decide_eq_true hb
  have hbit : ∀ p q : Nat, p + 1 = q → q ≤ 39 →
      (39 - q) * bitTicks c + c.pollBound + c.tSettle + 1 + c.pollBound ≤ (39 - p) * bitTicks c + 1 := by
    intro p q hpq hq
    rw [show 39 - p = (39 - q) + 1 by omega, Nat.succ_mul]
    have : bitTicks c = 2 * c.pollBound + c.tSettle := rfl
    omega
  split_ifs with hn hlast
  · exact hbit _ _ (by bv_omega) (by bv_omega)
  · exact hbit _ _ (by bv_omega) (by bv_omega)
  · exact Nat.le_add_left 1 _

/-- A poll that sees its target goes on to a state that takes less (R120). -/
theorem follows_of_pollOf (c : Cfg) {i : Instr} {target : Bool} {next fail : StateWord}
    (hp : pollOf i = some (target, next, fail)) (hw : i.wf = true) : Follows c i next := by
  cases i with
  | awaitAckLow => cases hp; exact ⟨_, decode_awaitAckHigh, rfl, by simp only [ticksAfter, cntBound]; omega⟩
  | awaitAckHigh => cases hp; exact ⟨_, decode_awaitAckEnd, rfl, by simp only [ticksAfter, cntBound]; omega⟩
  | awaitAckEnd =>
    cases hp
    exact ⟨_, (decode_readBitWord (b := 0#3) rfl 0#3).1, rfl, by
      simp [ticksAfter, cntBound, bitTicks]; omega⟩
  | readBitRise b n =>
    cases hp
    rw [← readBitWord_settle_eq]
    exact ⟨_, (decode_readBitWord hw n).2.1, rfl, by simp only [ticksAfter, cntBound]; omega⟩
  | readBitFall b n =>
    cases hp
    exact nextBit_eq hw n ▸ follows_nextBit c hw n
  | _ => cases hp

/-- The most ticks a busy state of the invariant can still take to a terminal state, by its instruction and CNT. -/
def ticksLeft (c : Cfg) (i : Instr) (cnt : Nat) : Nat := ticksAfter c i + (cntBound c i - cnt)

/-- `t` is in the middle of an acquisition that ends within `n` ticks. -/
def EndsWithin (c : Cfg) (n : Nat) (t : State) : Prop :=
  ∃ i, decodeStateWord t.stateReg = .instr i ∧ i.rests = false ∧ t.cnt < cntBound c i ∧ ticksLeft c i t.cnt ≤ n

theorem Follows.endsWithin {c : Cfg} {i : Instr} {w : StateWord} {u : State} {n cnt : Nat} (h : Follows c i w)
    (hstate : u.stateReg = w) (hzero : u.cnt = 0) (hw : c.wf = true) (hn : ticksLeft c i cnt ≤ n + 1)
    (hcnt : cnt < cntBound c i) : EndsWithin c n u := by
  obtain ⟨j, hj, hrest, hle⟩ := h
  have hbound := (cntBound_of_wf hw j).1
  refine ⟨j, hstate ▸ hj, hrest, by omega, ?_⟩
  unfold ticksLeft at hn ⊢
  omega

/-- A move of a busy state ends the acquisition or uses up one tick of it. -/
theorem Move.ends_or_endsWithin {t u : State} {i : Instr} {n : Nat} (h : Move t i u)
    (hi : decodeStateWord t.stateReg = .instr i) (hrest : i.rests = false) (hw : t.cfg.wf = true)
    (hcnt : t.cnt < cntBound t.cfg i) (hn : ticksLeft t.cfg i t.cnt ≤ n + 1) :
    Ends u.stateReg ∨ EndsWithin t.cfg n u := by
  have hcount : t.cntSucc ≠ cntBound t.cfg i →
      t.cntSucc < cntBound t.cfg i ∧ ticksLeft t.cfg i t.cntSucc ≤ n := by
    intro hc
    have hlt := State.cntSucc_lt_cntBound hw hcnt hc
    have hbound := (cntBound_of_wf hw i).2
    rw [t.cntSucc_of_lt (by omega)] at hlt ⊢
    unfold ticksLeft at hn ⊢
    omega
  cases h with
  | wait hr | start hr => simp [hrest] at hr
  | count _ hc => exact .inr ⟨i, hi, hrest, hcount hc⟩
  | miss hp _ _ hc =>
    rw [← cntBound_of_pollOf hp t.cfg] at hc
    exact .inr ⟨i, by simpa [State.afterRead] using hi, hrest, hcount hc⟩
  | driveHigh =>
    refine .inr (Follows.endsWithin ⟨_, decode_driveStartHigh, rfl, ?_⟩ rfl rfl hw hn hcnt)
    simp only [ticksAfter, cntBound]; omega
  | release =>
    refine .inr (Follows.endsWithin ⟨_, decode_awaitAckLow, rfl, ?_⟩ rfl rfl hw hn hcnt)
    simp only [ticksAfter, cntBound]; omega
  | sample hb =>
    refine .inr (Follows.endsWithin ⟨_, (decode_readBitWord hb _).2.2, rfl, ?_⟩ rfl rfl hw hn hcnt)
    simp only [ticksAfter, cntBound]; omega
  | detect hp hiw => exact .inr ((follows_of_pollOf t.cfg hp hiw).endsWithin rfl rfl hw hn hcnt)
  | timeOut hp hiw => exact .inl (ends_of_pollOf hp hiw)
  | accept => exact .inl ⟨_, decode_success, rfl, nofun⟩
  | mismatch => exact .inl (ends_failedWord .checksumMismatch (b := 0#3) rfl 0#3)

theorem EndsWithin.of_endTick {c : Cfg} {n : Nat} {u : State} (h : EndsWithin c n u) : EndsWithin c n u.endTick := by
  have hend := sameRegisters_endTick u
  obtain ⟨i, hi, hrest, hle⟩ := h
  exact ⟨i, hend.stateReg ▸ hi, hrest, hend.cnt ▸ hle⟩

/-- An acquisition that ends within `n + 1` ticks ends in this tick or within `n` more. -/
theorem EndsWithin.step {s t : State} {m n : Nat} (h : EndsWithin s.cfg (n + 1) t) (ht : CalmTick s m t)
    (hw : s.cfg.wf = true) : ∃ u, Machine.step t = .next u ∧ (u.done = true ∨ EndsWithin s.cfg n u) := by
  obtain ⟨i, hi, hrest, hcnt, hle⟩ := h
  obtain ⟨u, -, hmove⟩ := exists_move_of_busy hi hrest
  have hend := sameRegisters_endTick u
  rw [← ht.later.cfg] at hw hcnt hle ⊢
  refine ⟨_, step_of_move ht.admissible ht.noReset hi hmove,
    (hmove.ends_or_endsWithin hi hrest hw hcnt hle).imp ?_ ?_⟩
  · exact fun hends => Ends.done (hend.stateReg ▸ hends)
  · exact .of_endTick

/-- The start tick leaves the rest of R174's bound. -/
theorem endsWithin_startTick {s : State} (hw : s.cfg.wf = true) :
    EndsWithin s.cfg (acquisitionTicks s.cfg - 1) s.startAcquisition := by
  refine ⟨_, decode_driveStartLow, rfl, (cntBound_of_wf hw .driveStartLow).1, ?_⟩
  simp only [ticksLeft, ticksAfter, cntBound, acquisitionTicks, State.startAcquisition, State.goto_cnt]
  omega

/-- Settles O46: after the start tick the acquisition ends within the rest of the bound, and unless a tick ends it, it
ends within one tick less after it, which cannot go on past the bound. -/
theorem everyAcquisitionEndsInBoundedTime : Obligations.EveryAcquisitionEndsInBoundedTime := by
  refine ⟨fun s hinv hrest hacq hcalm => ?_, by decide⟩
  obtain ⟨hw, ⟨i, hi, -⟩, -⟩ := hinv
  by_contra hnone
  have hlive : ∀ n t, 0 < n → n ≤ acquisitionTicks s.cfg → runTicks n s = .next t → t.done ≠ true :=
    fun n t hpos hn hrun hdone => hnone ⟨n, hn, t, hrun, hpos, hdone⟩
  have hpos : 1 ≤ acquisitionTicks s.cfg := by unfold acquisitionTicks; omega
  have hstart := CalmTick.of_run hw hcalm hpos (runTicks_zero s)
  have hstep := step_startTick hstart.admissible hstart.noReset hi hrest hacq
  obtain ⟨t, -, j, -, -, hcnt, hle⟩ := exists_run (m := 0 + 1) (k := acquisitionTicks s.cfg)
    (P := fun m t => EndsWithin s.cfg (acquisitionTicks s.cfg - m) t) hw hcalm hpos le_rfl
    ⟨_, runTicks_snoc hstart.run hstep, (endsWithin_startTick hw).of_endTick⟩
    fun m t hm ht hends => by
      rw [show acquisitionTicks s.cfg - m = acquisitionTicks s.cfg - (m + 1) + 1 by omega] at hends
      obtain ⟨u, hu, hnext⟩ := hends.step ht hw
      exact ⟨u, hu, hnext.resolve_left (hlive _ u m.succ_pos hm (runTicks_snoc ht.run hu))⟩
  unfold ticksLeft at hle
  omega

end Sys2Proof.Machine

/-! SUPPORT. The family 42_bit_sampler.md: the three phases of a bit as instructions, how samples pack into a frame,
when a sample is taken, and what a run that ends in SUCCESS has sampled. -/

namespace Sys2Proof.Machine

open Sys2Proof

/-! ### The three phases of a bit (R114 to R116, R118) -/

/-- A byte or bit number is the number of its index. -/
theorem index_toNat {n : Nat} (h : n ≤ 7) : (BitVec.ofNat 3 n).toNat = n := by
  rw [BitVec.toNat_ofNat]
  omega

/-- The byte numbers of a frame are the legal byte indices (R67). -/
theorem byteIndexOk_ofNat {b : Nat} (h : b ≤ 4) : byteIndexOk (BitVec.ofNat 3 b) = true := by
  rw [byteIndexOk, index_toNat (by omega)]
  exact decide_eq_true h

theorem readBitWord_fall_eq (b n : Index) :
    readBitWord 2#2 b n = BitVec.ofNat 16 (0x6080 + 8 * b.toNat + n.toNat) := by
  revert b n; decide

/-- Settles O18: RISE is a polling state, and `pollOf` writes its words by the numbers of b and i. -/
theorem readBitRisePolls : Obligations.ReadBitRisePolls := by
  intro b i hb hi
  have hpolls := pollsFor_of_pollOf (i := .readBitRise (BitVec.ofNat 3 b) (BitVec.ofNat 3 i)) rfl (byteIndexOk_ofNat hb)
  rwa [index_toNat (show b ≤ 7 by omega), index_toNat hi] at hpolls

/-- Settles O20: FALL is a polling state, and bit (b, i) is not the last of the frame exactly if a bit of its byte or
another byte follows. -/
theorem readBitFallPollsAndMovesOn : Obligations.ReadBitFallPollsAndMovesOn := by
  intro b i hb hi
  have hpolls := pollsFor_of_pollOf (i := .readBitFall (BitVec.ofNat 3 b) (BitVec.ofNat 3 i)) rfl (byteIndexOk_ofNat hb)
  rw [index_toNat (show b ≤ 7 by omega), index_toNat hi] at hpolls
  convert hpolls using 1
  by_cases hbit : i < 7
  · rw [if_pos hbit, if_pos (by omega), ← Nat.add_assoc]
  by_cases hbyte : b < 4
  · rw [if_neg hbit, if_pos hbyte, if_pos (by omega), show 8 * (b + 1) = 8 * b + i + 1 by omega, ← Nat.add_assoc,
      ← Nat.add_assoc]
  · rw [if_neg hbit, if_neg hbyte, if_neg (by omega)]

/-- The shift of R115 in the operators of a word: one place to the left, and the level in bit 0. -/
theorem shiftIn_eq (f : Frame) (level : Bool) : shiftIn f level = (f <<< 1) ||| (if level then 1#40 else 0#40) := by
  refine BitVec.eq_of_getLsbD_eq fun n hn => ?_
  rw [shiftIn_getLsbD, BitVec.getLsbD_or, BitVec.getLsbD_shiftLeft]
  cases n with
  | zero => cases level <;> rfl
  | succ n => cases level <;> simp [hn]

/-- The sample: one read of the line, whose level is shifted into SR (R115). -/
theorem State.sample_eq (s : State) (b n : Index) :
    s.sample b n = { s.afterRead with stateReg := readBitWord 2#2 b n, cnt := 0, sr := shiftIn s.sr s.line } := by
  simp [State.sample, State.setSr, State.goto]

/-- Settles O19: the moves of a SETTLE phase are a count and, in the last tick of the delay, the sample. -/
theorem readBitSettleSamples : Obligations.ReadBitSettleSamples := by
  intro b i s hb hi
  have hok := byteIndexOk_ofNat hb
  refine ⟨fun hend => ?_, fun hcount =>
    (Move.count (i := .readBitSettle (BitVec.ofNat 3 b) (BitVec.ofNat 3 i)) rfl hcount).exec_eq hok⟩
  rw [(Move.sample hok hend).exec_eq hok, State.sample_eq, readBitWord_fall_eq, shiftIn_eq,
    index_toNat (show b ≤ 7 by omega), index_toNat hi]

/-! ### Byte packing (R117) -/

/-- The samples shifted into a cleared register stand in it latest first: bit 0 is the last one. -/
theorem foldl_shiftIn_getLsbD (l : List Bool) {n : Nat} (hn : n < 40) :
    (l.foldl shiftIn 0#40).getLsbD n = l.reverse.getD n false := by
  induction l using List.reverseRecOn generalizing n with
  | nil => simp
  | append_singleton l level ih =>
    rw [List.foldl_append, List.foldl_cons, List.foldl_nil, shiftIn_getLsbD, List.reverse_append]
    cases n with
    | zero => simp
    | succ n => simpa [hn] using ih (n := n) (by omega)

/-- Settles O22: of 40 samples, sample j is the one in place 39 - j from the last, and bit 7 - i of byte k is bit
39 - (8k + i) of the frame. -/
theorem fortySamplesPackMsbFirst : Obligations.FortySamplesPackMsbFirst := by
  intro l hl
  have hbit : ∀ j, j < 40 → (l.foldl shiftIn 0#40).getLsbD (39 - j) = l.getD j false := by
    intro j hj
    rw [foldl_shiftIn_getLsbD l (by omega), List.getD_eq_getElem?_getD, List.getElem?_reverse (by omega), hl,
      show 40 - 1 - (39 - j) = j by omega, ← List.getD_eq_getElem?_getD]
  refine ⟨hbit, fun k i hk hi => ?_⟩
  rw [← hbit (8 * k + i) (by omega), frameByte, BitVec.getLsbD_extractLsb',
    show 32 - 8 * k + (7 - i) = 39 - (8 * k + i) by omega, decide_eq_true (show 7 - i < 8 by omega), Bool.true_and]

/-! ### When the sample is taken (R114, R115, R119) -/

/-- Ticks of a hold before its last one only count. -/
theorem exists_run_of_counts {s u : State} {i : Instr} {m k N : Nat} (hw : s.cfg.wf = true) (hcalm : s.calm N)
    (hrun : runTicks m s = .next u) (hi : decodeStateWord u.stateReg = .instr i) (hhold : i.holds = true)
    (hcnt : u.cnt = 0) (hk : m + k ≤ N) (hbound : k < cntBound s.cfg i) :
    ∃ t, runTicks (m + k) s = .next t ∧ SameRegisters (u.setCnt k) t := by
  induction k with
  | zero => exact ⟨u, hrun, rfl, hcnt, rfl, rfl⟩
  | succ k ih =>
    obtain ⟨t, ht, hregs⟩ := ih (by omega) (by omega)
    have hcalmTick := CalmTick.of_run hw hcalm (by omega) ht
    have hbounds := (cntBound_of_wf hw i).2
    have hsucc := hcalmTick.later.cntSucc (k := k) hregs.cnt (by omega)
    have hmove := Move.count (s := t) hhold (by rw [hsucc, hcalmTick.later.cfg]; omega)
    have hcount : SameRegisters (u.setCnt (k + 1)) (t.setCnt t.cntSucc) :=
      ⟨hregs.stateReg, hsucc, hregs.sr, hregs.data⟩
    exact ⟨_, runTicks_snoc ht (step_of_move hcalmTick.admissible hcalmTick.noReset (hregs.stateReg ▸ hi) hmove),
      hcount.trans (sameRegisters_endTick _)⟩

/-- A SETTLE phase that a run enters with CNT 0 after tick `g` samples the line T_SETTLE ticks after `g`. -/
theorem exists_run_of_settle {s u : State} {b n : Index} {g N : Nat} (hw : s.cfg.wf = true) (hcalm : s.calm N)
    (hrun : runTicks (g + 1) s = .next u) (hi : decodeStateWord u.stateReg = .instr (.readBitSettle b n))
    (hcnt : u.cnt = 0) (hN : g + 1 + s.cfg.tSettle ≤ N) :
    ∃ t, runTicks (g + 1 + s.cfg.tSettle) s = .next t ∧ decodeStateWord t.stateReg = .instr (.readBitFall b n) ∧
      t.cnt = 0 ∧ t.sr = shiftIn u.sr (s.lineAt (s.tick + g + s.cfg.tSettle)) := by
  have hok : byteIndexOk b = true := wf_of_decodeStateWord hi
  have hbounds := Cfg.bounds_of_wf hw
  obtain ⟨k, hk⟩ : ∃ k, s.cfg.tSettle = k + 1 := ⟨s.cfg.tSettle - 1, by omega⟩
  obtain ⟨t, ht, hregs⟩ := exists_run_of_counts (k := k) hw hcalm hrun hi rfl hcnt (by omega)
    (show k < s.cfg.tSettle by omega)
  have hcalmTick := CalmTick.of_run hw hcalm (by omega) ht
  have hsucc := hcalmTick.later.cntSucc (k := k) hregs.cnt (by omega)
  have hmove : Move t (.readBitSettle b n) (t.sample b n) := .sample hok (by rw [hsucc, hcalmTick.later.cfg, hk])
  have hstep := step_of_move hcalmTick.admissible hcalmTick.noReset (hregs.stateReg ▸ hi) hmove
  have hend := sameRegisters_endTick (t.sample b n)
  have hsr : t.sr = u.sr := hregs.sr
  refine ⟨_, hk ▸ runTicks_snoc ht hstep, ?_, hend.cnt, ?_⟩
  · rw [hend.stateReg]
    exact (decode_readBitWord hok n).2.2
  · rw [hend.sr, State.sample_eq, hsr, hcalmTick.later.line,
      show s.tick + (g + 1 + k) = s.tick + g + s.cfg.tSettle by omega]

/-- Settles O45: the misses count (`exists_run_of_misses`), the next tick detects the rise and enters SETTLE with CNT 0
and SR as it was, and SETTLE samples T_SETTLE ticks after that read. -/
theorem sampleIsTakenSettleTicksAfterTheRise : Obligations.SampleIsTakenSettleTicksAfterTheRise := by
  intro s b i g hw hi hcnt hg hlow hhigh hcalm
  have hok : byteIndexOk b = true := wf_of_decodeStateWord hi
  obtain ⟨t, hrun, hregs⟩ := exists_run_of_misses rfl hw hi hcnt hcalm (by omega) hg fun j hj => by simp [hlow j hj]
  have ht := CalmTick.of_run hw hcalm (by omega) hrun
  obtain ⟨u, hrun, hstate, hcnt, -, hsr, -⟩ :=
    ht.exists_run_goto hi hregs (.detect rfl hok (ht.later.line.trans hhigh))
  rw [← readBitWord_settle_eq] at hstate
  have hsettle := hstate ▸ (decode_readBitWord hok i).2.1
  rw [← hsr, ← shiftIn_eq]
  exact exists_run_of_settle hw hcalm hrun hsettle hcnt le_rfl

/-! ### What a run samples (R115, R121, R133) -/

/-- From the state of `i` in `s` to `u`, the levels `l` entered SR one after the other, and STATE counts them. -/
def ShiftsIn (i : Instr) (s u : State) (l : List Bool) : Prop :=
  u.sr = l.foldl shiftIn s.sr ∧
  ∃ j, decodeStateWord u.stateReg = .instr j ∧ sampleCount j = sampleCount i + l.length

theorem ShiftsIn.trans {i j : Instr} {s u t : State} {l m : List Bool} (h : ShiftsIn i s u l)
    (hj : decodeStateWord u.stateReg = .instr j) (h' : ShiftsIn j u t m) : ShiftsIn i s t (l ++ m) := by
  obtain ⟨hsr, j', hj', hcount⟩ := h
  obtain ⟨hsr', k, hk, hcount'⟩ := h'
  cases hj.symm.trans hj'
  refine ⟨by rw [hsr', hsr, List.foldl_append], k, hk, ?_⟩
  rw [hcount', hcount, List.length_append, Nat.add_assoc]

/-- The end of a tick writes neither SR nor STATE. -/
theorem ShiftsIn.of_endTick {i : Instr} {s u : State} {l : List Bool} (h : ShiftsIn i s u l) :
    ShiftsIn i s u.endTick l := by
  have hend := sameRegisters_endTick u
  rwa [ShiftsIn, hend.sr, hend.stateReg]

/-- Only the last tick of a SETTLE phase samples (R115). -/
theorem State.sampled_eq_none {s : State} {i : Instr} (hi : decodeStateWord s.stateReg = .instr i)
    (h : ∀ b n, i = .readBitSettle b n → s.cntSucc ≠ s.cfg.tSettle) : s.sampled = none := by
  unfold State.sampled
  rw [hi]
  cases i with
  | readBitSettle b n => exact if_neg (h b n rfl)
  | _ => rfl

theorem State.sampled_eq_some {s : State} {b n : Index} (hi : decodeStateWord s.stateReg = .instr (.readBitSettle b n))
    (hc : s.cntSucc = s.cfg.tSettle) : s.sampled = some s.line := by
  unfold State.sampled
  rw [hi]
  exact if_pos hc

/-- A move that leaves SR, in a tick that samples nothing. -/
theorem ShiftsIn.of_sampled_none {i j : Instr} {s u : State} (h : s.sampled = none) (hsr : u.sr = s.sr)
    (hj : decodeStateWord u.stateReg = .instr j) (hcount : sampleCount j = sampleCount i) :
    ShiftsIn i s u s.sampled.toList := by
  rw [h]
  exact ⟨hsr, j, hj, hcount⟩

/-- A move of a busy state enters into SR what its tick samples, and STATE counts it (R115, R118, R121). -/
theorem Move.shiftsIn {s u : State} {i : Instr} (h : Move s i u) (hi : decodeStateWord s.stateReg = .instr i)
    (hrest : i.rests = false) : ShiftsIn i s u s.sampled.toList := by
  have hread := sameRegisters_afterRead s
  have hpoll : ∀ {target next fail}, pollOf i = some (target, next, fail) → s.sampled = none := fun hp =>
    State.sampled_eq_none hi fun b n hs => by subst hs; cases hp
  cases h with
  | wait hr | start hr => simp [hrest] at hr
  | count _ hc =>
    exact .of_sampled_none (State.sampled_eq_none hi fun b n hs => by subst hs; exact hc) rfl hi rfl
  | driveHigh => exact .of_sampled_none (State.sampled_eq_none hi nofun) (by simp) decode_driveStartHigh rfl
  | release => exact .of_sampled_none (State.sampled_eq_none hi nofun) (by simp) decode_awaitAckLow rfl
  | @sample b n hb hc =>
    rw [State.sampled_eq_some hi hc]
    exact ⟨by simp [State.sample_eq], _, (decode_readBitWord hb n).2.2, rfl⟩
  | detect hp hw =>
    obtain ⟨-, ⟨j, hj, hij, -⟩, -⟩ := pollOf_leadsTo hp hw
    exact .of_sampled_none (hpoll hp) hread.sr hj hij.samples
  | timeOut hp hw =>
    obtain ⟨-, -, j, hj, hij, -⟩ := pollOf_leadsTo hp hw
    exact .of_sampled_none (hpoll hp) hread.sr hj hij.samples
  | miss hp => exact .of_sampled_none (hpoll hp) hread.sr (hread.stateReg.symm ▸ hi) rfl
  | accept => exact .of_sampled_none (State.sampled_eq_none hi nofun) rfl decode_success rfl
  | mismatch =>
    exact .of_sampled_none (State.sampled_eq_none hi nofun) rfl
      (decode_failedWord .checksumMismatch (b := 0#3) rfl 0#3) rfl

/-- The first step of a run samples before the others. -/
theorem samplesOf_succ {n : Nat} {s u : State} (h : step s = .next u) :
    samplesOf (n + 1) s = s.sampled.toList ++ samplesOf n u := by
  change (match step s with | .next t => s.sampled.toList ++ samplesOf n t | _ => []) = _
  rw [h]

/-- Every run keeps the invariant of the engine registers. -/
theorem Inv.of_run {n : Nat} {s t : State} (h : Inv s) (hrun : runTicks n s = .next t) : Inv t := by
  induction n generalizing s with
  | zero => cases hrun; exact h
  | succ n ih =>
    obtain ⟨u, hu, hrun⟩ := runTicks_succ.1 hrun
    exact ih (stepKeepsTheInvariant s u h hu) hrun

/-- A step of a busy state that does not end in IDLE, so that no reset was given, enters what it samples. -/
theorem step_shiftsIn {s u : State} {i : Instr} (h : step s = .next u) (hi : decodeStateWord s.stateReg = .instr i)
    (hrest : i.rests = false) (hlive : u.busy = true ∨ u.valid = true) : ShiftsIn i s u s.sampled.toList := by
  obtain rfl | ⟨v, hmove, rfl⟩ := step_move hi h
  · obtain ⟨hbusy, -, hvalid⟩ := State.flags_of_idle (decode_resetTick s)
    simp [hbusy, hvalid] at hlive
  · exact (hmove.shiftsIn hi hrest).of_endTick

/-- A run through busy states to a SUCCESS enters its samples into SR, one step after the other. -/
theorem shiftsIn_samplesOf {n : Nat} {s t : State} {i : Instr} (hi : decodeStateWord s.stateReg = .instr i)
    (hrun : runTicks n s = .next t) (hvalid : t.valid = true)
    (hbusy : ∀ m u, m < n → runTicks m s = .next u → u.busy = true) : ShiftsIn i s t (samplesOf n s) := by
  induction n generalizing s i with
  | zero => cases hrun; exact ⟨rfl, i, hi, rfl⟩
  | succ n ih =>
    obtain ⟨u, hu, hrun⟩ := runTicks_succ.1 hrun
    have hrest : i.rests = false := by simpa [State.busy_of_decode hi] using hbusy 0 s n.succ_pos rfl
    have hlater : ∀ m v, m < n → runTicks m u = .next v → v.busy = true := fun m v hm hv =>
      hbusy (m + 1) v (Nat.succ_lt_succ hm) (runTicks_succ.2 ⟨u, hu, hv⟩)
    have hlive : u.busy = true ∨ u.valid = true := by
      cases n with
      | zero => cases hrun; exact .inr hvalid
      | succ n => exact .inl (hlater 0 u n.succ_pos rfl)
    have hfirst := step_shiftsIn hu hi hrest hlive
    have ⟨_, j, hj, _⟩ := hfirst
    rw [samplesOf_succ hu]
    exact hfirst.trans hj (ih hj hrun hlater)

/-- Settles O48: the run enters its samples into SR and STATE counts them up to the 40 of SUCCESS, where by the
invariant DATA is SR and its checksum holds. -/
theorem successfulReadingIsTheSampledLevels : Obligations.SuccessfulReadingIsTheSampledLevels := by
  intro s t n i hinv _ hi hrun hvalid hbusy
  obtain ⟨hsr, j, hj, hcount⟩ := shiftsIn_samplesOf hi hrun hvalid hbusy
  obtain ⟨-, ⟨k, hk, hfit⟩, -⟩ := hinv.of_run hrun
  cases hj.symm.trans hk
  have hsuccess : j = .success := by simpa [State.valid_of_decode hj] using hvalid
  obtain ⟨hdata, hsum⟩ := hfit.dataInSuccess hsuccess
  subst hsuccess
  exact ⟨by rw [Nat.add_comm, ← hcount]; rfl, hdata.trans hsr, hdata ▸ hsum⟩

end Sys2Proof.Machine

/-! SUPPORT. The family 43_checksum.md: the checksum as a sum of bytes, which errors it detects, and how a terminal
state is left. -/

namespace Sys2Proof.Machine

open Sys2Proof

/-! ### The checksum law (R125, R126) -/

/-- The checksum holds exactly if byte 4 is the sum of the others modulo 256, the addition of bytes (R126). -/
theorem checksumOk_iff (f : Frame) :
    checksumOk f = true ↔ frameByte f 0 + frameByte f 1 + frameByte f 2 + frameByte f 3 = frameByte f 4 := by
  have hsum : frameSum f = frameByte f 0 + frameByte f 1 + frameByte f 2 + frameByte f 3 := by
    apply BitVec.eq_of_toNat_eq
    simp only [frameSum, BitVec.extractLsb'_toNat, BitVec.toNat_add, BitVec.toNat_setWidth, Nat.shiftRight_zero]
    omega
  rw [checksumOk, beq_iff_eq, hsum, eq_comm]

/-- Byte k of a frame as a number: the frame shifted down to bit 32 - 8k (R117). -/
theorem frameByte_toNat (f : Frame) (k : Nat) : (frameByte f k).toNat = f.toNat / 2 ^ (32 - 8 * k) % 256 := by
  rw [frameByte, BitVec.extractLsb'_toNat, Nat.shiftRight_eq_div_pow]

/-- The checksum law in the number of the frame. -/
theorem checksumOk_iff_toNat (f : Frame) :
    checksumOk f = true ↔
      (f.toNat / 2 ^ 32 + f.toNat / 2 ^ 24 % 256 + f.toNat / 2 ^ 16 % 256 + f.toNat / 2 ^ 8 % 256) % 256
        = f.toNat % 256 := by
  rw [checksumOk_iff, ← BitVec.toNat_inj]
  simp only [BitVec.toNat_add, frameByte_toNat]
  omega

/-- Settles O23: the two moves of VERIFY_CHECKSUM, told apart by the law of `checksumOk_iff_toNat`. -/
theorem verifyChecksumDecidesByTheFiveBytes : Obligations.VerifyChecksumDecidesByTheFiveBytes := by
  refine fun s => ⟨fun hsum => ?_, fun hsum => ?_⟩
  · exact (Move.accept ((checksumOk_iff_toNat s.sr).2 hsum)).exec_eq rfl
  · rw [Ne, ← checksumOk_iff_toNat, Bool.not_eq_true] at hsum
    exact (Move.mismatch hsum).exec_eq rfl

/-! ### The errors it detects (R130) -/

/-- The checksum detects every error confined to one byte: four of the five bytes determine the fifth. -/
theorem checksumOk_eq_false_of_one_byte {f g : Frame} {k : Nat} (hk : k < 5)
    (hsame : ∀ j, j < 5 → j ≠ k → frameByte g j = frameByte f j) (hdiff : frameByte g k ≠ frameByte f k)
    (hf : checksumOk f = true) : checksumOk g = false := by
  rw [← Bool.not_eq_true]
  refine fun hg => hdiff ?_
  rw [checksumOk_iff] at hf hg
  match k with
  | 0 | 1 | 2 | 3 =>
    rw [hsame 4 (by omega) (by omega), ← hf] at hg
    simpa [hsame] using hg
  | 4 => rw [← hg, ← hf, hsame 0, hsame 1, hsame 2, hsame 3] <;> decide

/-- Flipping bit n of a frame flips bit n alone. -/
theorem xor_one_shiftLeft_getLsbD (f : Frame) {n : Nat} (hn : n < 40) (m : Nat) :
    (f ^^^ (1#40 <<< n)).getLsbD m = (f.getLsbD m ^^ decide (m = n)) := by
  rw [← BitVec.twoPow_eq, BitVec.getLsbD_xor, BitVec.getLsbD_twoPow, decide_eq_true hn, Bool.true_and]
  simp [eq_comm]

theorem frameByte_getLsbD (f : Frame) (k : Nat) {i : Nat} (hi : i < 8) :
    (frameByte f k).getLsbD i = f.getLsbD (32 - 8 * k + i) := by
  rw [frameByte, BitVec.getLsbD_extractLsb', decide_eq_true hi, Bool.true_and]

/-- Settles O24: bit n of a frame is bit n % 8 of byte 4 - n / 8 and of no other, and an error in one byte is
detected. -/
theorem checksumDetectsEverySingleBitError : Obligations.ChecksumDetectsEverySingleBitError := by
  intro f n hn
  refine checksumOk_eq_false_of_one_byte (k := 4 - n / 8) (by omega) (fun j hj hne => ?_) fun heq => ?_
  · refine BitVec.eq_of_getLsbD_eq fun i hi => ?_
    rw [frameByte_getLsbD _ _ hi, frameByte_getLsbD _ _ hi, xor_one_shiftLeft_getLsbD f hn,
      decide_eq_false (by omega), Bool.xor_false]
  · have hi : n % 8 < 8 := Nat.mod_lt _ (by omega)
    have hbit := congrArg (BitVec.getLsbD · (n % 8)) heq
    simp only [frameByte_getLsbD _ _ hi, xor_one_shiftLeft_getLsbD f hn] at hbit
    rw [decide_eq_true (by omega)] at hbit
    simp at hbit

/-! ### What leaves a terminal state (R98, R99, R102, R112, R134) -/

/-- Two words that decode to different instructions differ. -/
theorem ne_of_decode_ne {v w : StateWord} {i j : Instr} (hv : decodeStateWord v = .instr i)
    (hw : decodeStateWord w = .instr j) (hne : i ≠ j) : v ≠ w := by
  rintro rfl
  exact hne (Decoded.instr.inj (hv.symm.trans hw))

/-- A polling state does not rest (R97). -/
theorem rests_of_pollOf {i : Instr} {target : Bool} {next fail : StateWord}
    (hp : pollOf i = some (target, next, fail)) : i.rests = false := by
  cases i with
  | awaitAckLow | awaitAckHigh | awaitAckEnd | readBitRise _ _ | readBitFall _ _ => rfl
  | _ => cases hp

/-- The state word that a busy state moves on to: neither that of IDLE nor that of DRIVE_START_LOW (R99, R112). -/
def MovesOn (w : StateWord) : Prop := w ≠ 0x0000#16 ∧ w ≠ 0x1000#16

theorem MovesOn.of_decode {w : StateWord} {j : Instr} (h : decodeStateWord w = .instr j) (hidle : j ≠ .idle)
    (hlow : j ≠ .driveStartLow) : MovesOn w :=
  ⟨ne_of_decode_ne h decode_idle hidle, ne_of_decode_ne h decode_driveStartLow hlow⟩

/-- Every poll leads on, as its states leave the pin released (R110). -/
theorem LeadsTo.movesOn {i : Instr} {w : StateWord} (h : LeadsTo i w) : MovesOn w := by
  obtain ⟨j, hj, -, hreleased⟩ := h
  refine .of_decode hj ?_ ?_ <;> (rintro rfl; cases hreleased)

/-- What a move makes of STATE: it keeps it, enters DRIVE_START_LOW by ACQUIRE in a resting state, or moves on from a
busy state. -/
theorem Move.stateReg_cases {s u : State} {i : Instr} (h : Move s i u) :
    u.stateReg = s.stateReg ∨ (i.rests = true ∧ s.acqReq = true ∧ u.stateReg = 0x1000#16) ∨
      (i.rests = false ∧ MovesOn u.stateReg) := by
  cases h with
  | wait | count => exact .inl rfl
  | miss => exact .inl (sameRegisters_afterRead s).stateReg
  | start hi ha => exact .inr (.inl ⟨hi, ha, rfl⟩)
  | driveHigh => exact .inr (.inr ⟨rfl, .of_decode decode_driveStartHigh nofun nofun⟩)
  | release => exact .inr (.inr ⟨rfl, .of_decode decode_awaitAckLow nofun nofun⟩)
  | sample hb => exact .inr (.inr ⟨rfl, .of_decode (decode_readBitWord hb _).2.2 nofun nofun⟩)
  | detect hp hw =>
    obtain ⟨-, hnext, -⟩ := pollOf_leadsTo hp hw
    exact .inr (.inr ⟨rests_of_pollOf hp, hnext.movesOn⟩)
  | timeOut hp hw =>
    obtain ⟨-, -, hfail⟩ := pollOf_leadsTo hp hw
    exact .inr (.inr ⟨rests_of_pollOf hp, hfail.movesOn⟩)
  | accept => exact .inr (.inr ⟨rfl, .of_decode decode_success nofun nofun⟩)
  | mismatch =>
    exact .inr (.inr ⟨rfl, .of_decode (decode_failedWord .checksumMismatch (b := 0#3) rfl 0#3) nofun nofun⟩)

/-- Settles O36: a reset enters IDLE, and without one the step makes a move, which changes STATE only as
`Move.stateReg_cases` says. -/
theorem onlyAcquireOrResetLeavesATerminalState : Obligations.OnlyAcquireOrResetLeavesATerminalState := by
  intro s t h
  cases hrst : s.rst with
  | true => simp [eq_resetTick_of_step h hrst]
  | false =>
    obtain ⟨i, u, hi, hmove, rfl⟩ := exists_move_of_step h hrst
    rw [State.done_of_decode hi, restsIn_of_decode hi, (sameRegisters_endTick u).stateReg]
    obtain hstay | ⟨hrest, hacq, hlow⟩ | ⟨hbusy, hnotIdle, hnotLow⟩ := hmove.stateReg_cases
    · rw [hstay]
      exact ⟨fun _ hne => absurd rfl hne, fun h0 hne => absurd h0 hne, fun h1 hne => absurd h1 hne⟩
    · simp [hrest, hacq, hlow]
    · simp [hbusy, hnotIdle, hnotLow]

end Sys2Proof.Machine

/-! SUPPORT. The family 60_exceptions.md: which moves enter a FAILED word, and what such a move leaves as it was. -/

namespace Sys2Proof.Machine

open Sys2Proof

/-! ### Entering a FAILED word (R136, R145, R146) -/

/-- The move from `s` to `u` in the state of `i` raises a failure (R136): out of a busy state, it enters the FAILED word
that the poll or the check of the state names, with CNT 0; it keeps SR and DATA, issues no access but a read of the line,
and in a tick without other masters keeps the bank. -/
structure RaisesFail (s : State) (i : Instr) (u : State) : Prop where
  notResting : i.rests = false
  namesItsState : (∃ target next, pollOf i = some (target, next, u.stateReg)) ∨
    (i = .verifyChecksum ∧ u.stateReg = 0x9C00#16)
  sr : u.sr = s.sr
  data : u.data = s.data
  cnt : u.cnt = 0
  readsOnly : ∃ es, AddsEvents s.tick s u es ∧ ∀ e ∈ es, e.key = readKey s.cfg.offDatain
  bank : s.quiet = true → u.oe = s.oe ∧ u.dout = s.dout

/-- The word of a busy state is not a FAILED word (R97). -/
theorem kind_ne_failed {w : StateWord} {j : Instr} (h : decodeStateWord w = .instr j) (hj : j.rests = false) :
    w.extractLsb' 12 4 ≠ 0x9#4 := fun hkind => by
  have hrests := (restsIn_iff w).2 (.inr (.inr hkind))
  simp [restsIn_of_decode h, hj] at hrests

/-- The two moves that change STATE to a FAILED word are the last miss of a poll and a checksum that does not hold: a
hold and a poll's target lead on to busy states, an ACQUIRE to DRIVE_START_LOW, and a checksum that holds to SUCCESS. -/
theorem Move.raisesFail {s u : State} {i : Instr} (h : Move s i u) (hkind : u.stateReg.extractLsb' 12 4 = 0x9#4)
    (hne : u.stateReg ≠ s.stateReg) : RaisesFail s i u := by
  have hread := sameRegisters_afterRead s
  cases h with
  | wait | count => exact absurd rfl hne
  | miss => exact absurd hread.stateReg hne
  | start => exact absurd hkind (kind_ne_failed decode_driveStartLow rfl)
  | driveHigh => exact absurd hkind (kind_ne_failed decode_driveStartHigh rfl)
  | release => exact absurd hkind (kind_ne_failed decode_awaitAckLow rfl)
  | sample hb => exact absurd hkind (kind_ne_failed (decode_readBitWord hb _).2.2 rfl)
  | detect hp hw =>
    obtain ⟨j, hj, hbusy, -⟩ := follows_of_pollOf s.cfg hp hw
    exact absurd hkind (kind_ne_failed hj hbusy)
  | accept => exact absurd hkind (show (plainWord 0x8#4).extractLsb' 12 4 ≠ 0x9#4 by decide)
  | timeOut hp =>
    exact ⟨rests_of_pollOf hp, .inl ⟨_, _, hp⟩, hread.sr, hread.data, rfl,
      ⟨_, (addsEvents_afterRead s).trans (.of_eq rfl), by simp⟩, State.afterRead_of_quiet⟩
  | mismatch => exact ⟨rfl, .inr ⟨rfl, rfl⟩, rfl, rfl, rfl, ⟨_, .of_eq rfl, nofun⟩, fun _ => ⟨rfl, rfl⟩⟩

/-- The end of a tick without other masters keeps the bank. -/
theorem State.endTick_bank_of_quiet {s : State} (h : s.quiet = true) :
    s.endTick.oe = s.oe ∧ s.endTick.dout = s.dout := by
  rw [State.endTick, s.othersAfter_of_quiet h]
  exact ⟨rfl, rfl⟩

/-- Settles O37: a reset enters IDLE, and a move that enters a FAILED word is one of `Move.raisesFail`, whose effects the
end of the tick keeps. -/
theorem failuresArePreciseAndDoNotNest : Obligations.FailuresArePreciseAndDoNotNest := by
  intro s t h hkind hne
  cases hrst : s.rst with
  | true =>
    rw [eq_resetTick_of_step h hrst, State.resetTick_stateReg] at hkind
    exact absurd hkind (by decide)
  | false =>
    obtain ⟨i, u, hi, hmove, rfl⟩ := exists_move_of_step h hrst
    have hend := sameRegisters_endTick u
    rw [hend.stateReg] at hkind hne ⊢
    obtain ⟨hbusy, hnames, hsr, hdata, hcnt, ⟨es, hes, hkeys⟩, hbank⟩ := hmove.raisesFail hkind hne
    refine ⟨by rw [State.busy_of_decode hi, hbusy]; rfl, ⟨i, hi, hnames⟩, hend.sr.trans hsr, hend.data.trans hdata,
      hend.cnt.trans hcnt, ?_, fun hq => ?_⟩
    · rw [(hes.endTick hmove.sameTick.tick).newEngineEvents_eq]
      exact hkeys
    · obtain ⟨hoe, hdout⟩ := hbank hq
      have hquiet : u.quiet = true := (State.quiet_congr hmove.sameTick.tick hmove.sameTick.others).trans hq
      obtain ⟨hoeEnd, hdoutEnd⟩ := State.endTick_bank_of_quiet hquiet
      exact ⟨hoeEnd.trans hoe, hdoutEnd.trans hdout⟩

end Sys2Proof.Machine

/-! SUPPORT. The family 70_reset_and_hazards.md: what a reset tick leaves, and the fewest ticks an acquisition takes to
SUCCESS. -/

namespace Sys2Proof.Machine

open Sys2Proof

/-! ### A reset tick (R157, R159, R160) -/

section
variable (s : State)

/-- Another master's access and the reset of the engine's registers do not see each other. -/
theorem State.applyOther_resetEngine (a : OtherAccess) :
    s.resetEngine.applyOther a = (s.applyOther a).resetEngine := by
  unfold State.applyOther
  rw [show s.resetEngine.cfg = s.cfg from rfl]
  generalize decodeAccess s.cfg a.key a.data = d
  cases d with
  | instr i => cases i <;> rfl
  | reject r => cases r <;> rfl

theorem State.othersAfter_resetEngine : s.resetEngine.othersAfter = s.othersAfter.resetEngine :=
  List.foldl_hom State.resetEngine State.applyOther_resetEngine

/-- A reset tick is what the other masters make of the tick, with the engine's registers reset. -/
theorem State.resetTick_eq : s.resetTick = s.othersAfter.resetEngine.nextTick.setSinceReset 0 := by
  rw [State.resetTick, State.endTick, State.othersAfter_resetEngine]

@[simp] theorem State.resetTick_oe : s.resetTick.oe = s.othersAfter.oe := by rw [State.resetTick_eq]; rfl
@[simp] theorem State.resetTick_dout : s.resetTick.dout = s.othersAfter.dout := by rw [State.resetTick_eq]; rfl
@[simp] theorem State.resetTick_history : s.resetTick.history = s.othersAfter.history := by
  rw [State.resetTick_eq]; rfl

/-- The engine issues no access in a reset tick (R157). -/
theorem State.resetTick_busHistory : s.resetTick.busHistory = s.busHistory := by
  simpa using (addsEvents_resetTick s).busHistory_eq

end

/-- Settles O11: the step is the reset tick, which writes the registers of IDLE and leaves the bank and the history to the
other masters. -/
theorem resetTickResetsTheEngine : Obligations.ResetTickResetsTheEngine := by
  intro s ha hrst
  obtain ⟨hbusy, hdone, hvalid⟩ := State.flags_of_idle (decode_resetTick s)
  have hbank : s.quiet = true →
      s.resetTick.oe = s.oe ∧ s.resetTick.dout = s.dout ∧ s.resetTick.history = s.history := fun hq => by
    simp [s.othersAfter_of_quiet hq]
  exact ⟨s.resetTick, step_of_rst ha hrst, s.resetTick_stateReg, s.resetTick_cnt, s.resetTick_sr, s.resetTick_data, hbusy,
    hdone, hvalid, s.resetTick_busHistory, s.resetTick_oe, s.resetTick_dout, hbank, s.resetTick_cfg, s.resetTick_tick,
    s.resetTick_sinceReset, s.resetTick_host, s.resetTick_trace, s.resetTick_others⟩

/-! ### The fewest ticks to SUCCESS (R175) -/

/-- The fewest ticks to SUCCESS from the state of `i` with CNT `cnt`: holds run to their end, every poll detects at once,
and IDLE and FAILED wait for a new ACQUIRE. -/
def leastTicks (c : Cfg) (cnt : Nat) : Instr → Nat
  | .driveStartLow => c.tStartLow - cnt + c.tStartHigh + 4 + 40 * (2 + c.tSettle)
  | .driveStartHigh => c.tStartHigh - cnt + 4 + 40 * (2 + c.tSettle)
  | .awaitAckLow => 4 + 40 * (2 + c.tSettle)
  | .awaitAckHigh => 3 + 40 * (2 + c.tSettle)
  | .awaitAckEnd => 2 + 40 * (2 + c.tSettle)
  | .readBitRise b n => (39 - (8 * b.toNat + n.toNat)) * (2 + c.tSettle) + c.tSettle + 3
  | .readBitSettle b n => (39 - (8 * b.toNat + n.toNat)) * (2 + c.tSettle) + (c.tSettle - cnt) + 2
  | .readBitFall b n => (39 - (8 * b.toNat + n.toNat)) * (2 + c.tSettle) + 2
  | .verifyChecksum => 1
  | .success => 0
  | _ => fastestSuccessTicks c

/-- A state word that with CNT `cnt` needs at least `n` more ticks to SUCCESS. -/
def NeedsTicks (c : Cfg) (n : Nat) (w : StateWord) (cnt : Nat) : Prop :=
  ∃ i, decodeStateWord w = .instr i ∧ n ≤ leastTicks c cnt i

section
variable {c : Cfg} {cnt n : Nat} {i : Instr} {w : StateWord}

theorem leastTicks_of_rests (hrest : i.rests = true) (hi : i ≠ .success) :
    leastTicks c cnt i = fastestSuccessTicks c := by
  cases i with
  | success => exact absurd rfl hi
  | idle | failedNoResponse | failedStuckLow | failedStuckHigh | failedBitTimeout _ _ | failedBitStuckHigh _ _
  | failedChecksumMismatch => rfl
  | _ => cases hrest

/-- No state needs more than a whole acquisition. -/
theorem leastTicks_le_fastestSuccessTicks (c : Cfg) (cnt : Nat) (i : Instr) :
    leastTicks c cnt i ≤ fastestSuccessTicks c := by
  have hbits : ∀ p, (39 - p) * (2 + c.tSettle) ≤ 39 * (2 + c.tSettle) := fun p =>
    Nat.mul_le_mul_right _ (Nat.sub_le 39 p)
  unfold fastestSuccessTicks
  cases i with
  | readBitRise b k | readBitSettle b k | readBitFall b k =>
    have := hbits (8 * b.toNat + k.toNat)
    simp only [leastTicks]
    omega
  | _ => simp only [leastTicks, fastestSuccessTicks]; omega

/-- The start tick and the start pulse begin a whole acquisition. -/
theorem leastTicks_driveStartLow (c : Cfg) : leastTicks c 0 .driveStartLow + 1 = fastestSuccessTicks c := by
  simp only [leastTicks, fastestSuccessTicks]
  omega

/-- A count takes at most one tick off what its state needs. -/
theorem leastTicks_le_count {cnt' : Nat} (h : cnt' ≤ cnt + 1) (i : Instr) :
    leastTicks c cnt i ≤ leastTicks c cnt' i + 1 := by
  cases i <;> simp only [leastTicks] <;> omega

/-- A state that rests outside SUCCESS needs a whole acquisition, so it follows every state. -/
theorem NeedsTicks.of_rests {j : Instr} (hj : decodeStateWord w = .instr j) (hrest : j.rests = true) (hne : j ≠ .success)
    (hn : n + 1 ≤ leastTicks c cnt i) (cnt' : Nat) : NeedsTicks c n w cnt' := by
  have hle := leastTicks_le_fastestSuccessTicks c cnt i
  exact ⟨j, hj, by rw [leastTicks_of_rests hrest hne]; omega⟩

/-- The next bit needs one bit less to the end of the frame (R118). -/
theorem needsTicks_nextBit {b : Index} (hb : byteIndexOk b = true) (k : Index)
    (hn : n + 1 ≤ leastTicks c cnt (.readBitFall b k)) : NeedsTicks c n (nextBit b k) 0 := by
  refine ⟨_, decode_nextBit hb k, ?_⟩
  have hb4 : b.toNat ≤ 4 := of_decide_eq_true hb
  have hbit : ∀ p q : Nat, p + 1 = q → q ≤ 39 →
      (39 - p) * (2 + c.tSettle) + 2 = (39 - q) * (2 + c.tSettle) + c.tSettle + 3 + 1 := fun p q hpq hq => by
    rw [show 39 - p = (39 - q) + 1 by omega, Nat.succ_mul]
    omega
  simp only [leastTicks] at hn
  split_ifs with hk hlast <;> simp only [leastTicks]
  · have := hbit (8 * b.toNat + k.toNat) (8 * b.toNat + (k + 1#3).toNat) (by bv_omega) (by bv_omega)
    omega
  · have := hbit (8 * b.toNat + k.toNat) (8 * (b + 1#3).toNat + (0#3).toNat) (by bv_omega) (by bv_omega)
    omega
  · rw [show 39 - (8 * b.toNat + k.toNat) = 0 by omega] at hn
    omega

/-- A poll that sees its target takes one tick off what its state needs (R103). -/
theorem needsTicks_of_pollOf {target : Bool} {next fail : StateWord} (hp : pollOf i = some (target, next, fail))
    (hw : i.wf = true) (hn : n + 1 ≤ leastTicks c cnt i) : NeedsTicks c n next 0 := by
  cases i with
  | readBitFall b k => cases hp; exact nextBit_eq hw k ▸ needsTicks_nextBit hw k hn
  | awaitAckLow => cases hp; exact ⟨_, decode_awaitAckHigh, by simp only [leastTicks] at hn ⊢; omega⟩
  | awaitAckHigh => cases hp; exact ⟨_, decode_awaitAckEnd, by simp only [leastTicks] at hn ⊢; omega⟩
  | awaitAckEnd =>
    cases hp
    exact ⟨_, (decode_readBitWord (b := 0#3) rfl 0#3).1, by simp [leastTicks] at hn ⊢; omega⟩
  | readBitRise b k =>
    cases hp
    rw [← readBitWord_settle_eq]
    exact ⟨_, (decode_readBitWord hw k).2.1, by simp only [leastTicks] at hn ⊢; omega⟩
  | _ => cases hp

/-- A poll that fails ends in FAILED (R103). -/
theorem needsTicks_of_pollOf_fail {target : Bool} {next fail : StateWord} (hp : pollOf i = some (target, next, fail))
    (hw : i.wf = true) (hn : n + 1 ≤ leastTicks c cnt i) : NeedsTicks c n fail 0 := by
  obtain ⟨j, hj, hrest, -⟩ := ends_of_pollOf hp hw
  obtain ⟨-, -, k, hk, hkeep, -⟩ := pollOf_leadsTo hp hw
  cases hj.symm.trans hk
  exact .of_rests hj hrest hkeep.targetNotSuccess hn 0

end

theorem State.cntSucc_le (s : State) : s.cntSucc ≤ s.cnt + 1 := Nat.mod_le _ _

/-- The start of an acquisition leaves all of it but one tick (R98). -/
theorem needsTicks_startAcquisition (s : State) {n : Nat} (hn : n + 1 ≤ fastestSuccessTicks s.cfg) :
    NeedsTicks s.cfg n s.startAcquisition.stateReg s.startAcquisition.cnt := by
  rw [← leastTicks_driveStartLow] at hn
  exact ⟨_, decode_driveStartLow, Nat.le_of_succ_le_succ hn⟩

/-- A move takes at most one tick off what the state needs. -/
theorem Move.needsTicks {s u : State} {i : Instr} {n : Nat} (h : Move s i u)
    (hi : decodeStateWord s.stateReg = .instr i) (hn : n + 1 ≤ leastTicks s.cfg s.cnt i) :
    NeedsTicks s.cfg n u.stateReg u.cnt := by
  have hcount := s.cntSucc_le
  have hstay := leastTicks_le_count (c := s.cfg) hcount i
  cases h with
  | wait => exact ⟨i, hi, by omega⟩
  | start => exact needsTicks_startAcquisition s (hn.trans (leastTicks_le_fastestSuccessTicks s.cfg s.cnt i))
  | count => exact ⟨i, hi, by simp only [State.setCnt_cnt]; omega⟩
  | miss => exact ⟨i, by simpa [State.afterRead] using hi, by simp only [State.setCnt_cnt]; omega⟩
  | driveHigh hc => exact ⟨_, decode_driveStartHigh, by simp only [leastTicks, State.goto_cnt] at hn ⊢; omega⟩
  | release hc => exact ⟨_, decode_awaitAckLow, by simp only [leastTicks] at hn ⊢; omega⟩
  | sample hb hc => exact ⟨_, (decode_readBitWord hb _).2.2, by simp only [leastTicks] at hn ⊢; omega⟩
  | detect hp hw => exact needsTicks_of_pollOf hp hw hn
  | timeOut hp hw => exact needsTicks_of_pollOf_fail hp hw hn
  | accept => exact ⟨_, decode_success, by simp only [leastTicks] at hn ⊢; omega⟩
  | mismatch => exact .of_rests (decode_failedWord .checksumMismatch (b := 0#3) rfl 0#3) rfl nofun hn 0

/-- The end of a tick writes neither STATE nor CNT. -/
theorem NeedsTicks.of_endTick {c : Cfg} {u : State} {n : Nat} (h : NeedsTicks c n u.stateReg u.cnt) :
    NeedsTicks c n u.endTick.stateReg u.endTick.cnt := by
  have hend := sameRegisters_endTick u
  rwa [hend.stateReg, hend.cnt]

/-- A step, with whatever inputs, takes at most one tick off what the state needs: a reset goes to IDLE. -/
theorem NeedsTicks.step {s t : State} {n : Nat} (hn : NeedsTicks s.cfg (n + 1) s.stateReg s.cnt)
    (h : Machine.step s = .next t) : NeedsTicks s.cfg n t.stateReg t.cnt := by
  obtain ⟨i, hi, hn⟩ := hn
  obtain rfl | ⟨u, hmove, rfl⟩ := step_move hi h
  · exact .of_rests (decode_resetTick s) rfl nofun hn _
  · exact (hmove.needsTicks hi hn).of_endTick

/-- A run takes at most its own length off what the state needs. -/
theorem NeedsTicks.of_run {s t : State} {m n : Nat} (hn : NeedsTicks s.cfg (n + m) s.stateReg s.cnt)
    (hrun : runTicks m s = .next t) : NeedsTicks s.cfg n t.stateReg t.cnt := by
  induction m generalizing s with
  | zero => cases hrun; exact hn
  | succ m ih =>
    obtain ⟨u, hu, hrun⟩ := runTicks_succ.1 hrun
    have hcfg := (LaterBy.of_run (runTicks_succ.2 ⟨u, hu, runTicks_zero u⟩)).cfg
    exact hcfg ▸ ih (hcfg ▸ hn.step hu) hrun

/-- SUCCESS needs no more ticks. -/
theorem NeedsTicks.valid_eq_false {c : Cfg} {s : State} {n : Nat} (h : NeedsTicks c (n + 1) s.stateReg s.cnt) :
    s.valid = false := by
  obtain ⟨i, hi, hn⟩ := h
  rw [State.valid_of_decode hi, decide_eq_false_iff_not]
  rintro rfl
  cases hn

/-- Settles O47: the start tick leaves a state that needs one tick less than the fastest acquisition, and the rest of the
run is too short to take that down to the 0 of SUCCESS. -/
theorem noSuccessBeforeTheFastestTime : Obligations.NoSuccessBeforeTheFastestTime := by
  refine ⟨fun s t n hinv hrest hacq hrst hpos hn hrun => ?_, by decide⟩
  obtain ⟨m, rfl⟩ : ∃ m, n = m + 1 := ⟨n - 1, by omega⟩
  obtain ⟨u, hu, hrun⟩ := runTicks_succ.1 hrun
  obtain ⟨-, ⟨i, hi, -⟩, -⟩ := hinv
  obtain ⟨hadm, -⟩ := step_next hu
  cases hu.symm.trans (step_startTick hadm hrst hi hrest hacq)
  have hcfg : s.startAcquisition.endTick.cfg = s.cfg := by simp [State.endTick, State.startAcquisition]
  obtain ⟨k, hk⟩ := Nat.exists_eq_add_of_lt hn
  have hneeds := (needsTicks_startAcquisition s (n := k + 1 + m) (by omega)).of_endTick
  exact ((hcfg ▸ hneeds).of_run hrun).valid_eq_false

end Sys2Proof.Machine
